-- ==== Sys2Proof/Word.lean ====
section
/-! DEFINITION. The word types of NPK-FCB and their plainest helpers.

The block stores and moves bytes only (spec/20_memory.md R50); its one wider quantity is the 16-bit CRC value (R59), and an
external memory address has 32 bits (spec/00_scope.md R8, ADDR_WIDTH). -/

namespace Sys2Proof

/-- A byte, bit 7 the most significant (spec/00_scope.md R9). -/
abbrev Byte := BitVec 8

/-- A 16-bit CRC value (spec/41_crc16.md R121). -/
abbrev Half := BitVec 16

/-- An external memory address (spec/20_memory.md R54). -/
abbrev Addr := BitVec 32

end Sys2Proof
end

