-- ==== Sys2Proof/Config.lean ====
section
/-! DEFINITION. What an implementation of NPK-FCB fixes (spec/00_scope.md R8), and the free values.

The fixed parameters are constants. The open parameters of the block are plain data, `Params`, carried in the state and never changed by
a step (log entry 3), so that a claim over every state is a claim over every choice of them. The bounds of the RAM window, for which the spec gives no
default, and every value the spec leaves undefined are opaque constants: nothing can be proved of which value they are. -/

namespace Sys2Proof

/-- HBUF_SIZE (R8). -/
abbrev Config.hbufSize : Nat := 4

/-- PBUF_SIZE (R8). -/
abbrev Config.pbufSize : Nat := 256

/-- MAX_DATA_LEN, the largest data length of a frame (R8, R162). -/
abbrev Config.maxDataLen : Nat := 255

/-- LIF_MAX, the largest length sent in the format byte (R8, R80). -/
abbrev Config.lifMax : Nat := 63

/-- CRC_POLY, x^16 + x^12 + x^5 + 1 without its x^16 term (R8, spec/41_crc16.md R121). -/
def Config.crcPoly : Half := 0x1021#16

/-- The largest external memory address (spec/20_memory.md R58). -/
abbrev Config.maxAddr : Nat := 0xFFFFFFFF

/-- The open parameters of R8, arguments of the model. -/
structure Params where
  /-- T_IDLE, the quiet period of the resynchronization purge. -/
  tIdle : Nat
  /-- T_SETTLE, the quiet period of the purge after a speed change. -/
  tSettle : Nat
  /-- CRC_INIT, the CRC register before the first byte. -/
  crcInit : Half
  /-- CRC_REFIN, reflect each input byte. -/
  crcRefin : Bool
  /-- CRC_REFOUT, reflect the final register. -/
  crcRefout : Bool
  /-- CRC_XOROUT, xored into the result. -/
  crcXorout : Half
  /-- CRC_CHUNK_SIZE, bytes per chunk of the host's CRC verify service. -/
  crcChunkSize : Nat
deriving DecidableEq, Repr

/-- The spec's suggested defaults (R8, decisions D4, D15, D22, D27). -/
def Params.default : Params :=
  { tIdle := 10, tSettle := 10, crcInit := 0xFFFF#16, crcRefin := false, crcRefout := false, crcXorout := 0x0000#16,
    crcChunkSize := 256 }

/-- A byte the spec leaves undefined, drawn by the model's counter `fresh` (log entry 5). -/
opaque Config.freeByte : Nat → Byte

/-- A 16-bit value the spec leaves undefined, drawn by the model's counter `fresh` (log entry 5). -/
opaque Config.freeHalf : Nat → Half

/-- What the platform's memory holds at an address the state does not list: `mem` of R8 and R54 is given by the platform and open (log entry 6). -/
opaque Config.platformByte : Nat → Byte

/-- What a request field reads beyond the data bytes of a frame, by the byte's place: the spec gives fields of data bytes only
(spec/45_host_context.md R214; log entry 25). -/
opaque Config.absentByte : Nat → Byte

/-- The first byte of a positive response to a service identifier of 0xC0 or above, where SID + 0x40 does not fit a byte and the spec gives none
(spec/45_host_context.md R209; log entry 26). -/
opaque Config.responseByte : Byte → Byte

/-- RAM_MIN, used by the host only (R8, spec/45_host_context.md R226). -/
opaque Config.ramMin : Addr

/-- RAM_MAX, used by the host only (R8, spec/45_host_context.md R226). -/
opaque Config.ramMax : Addr

end Sys2Proof
end

