-- ==== Sys2Proof/Syntax.lean ====
section
/-! DEFINITION. The operations of NPK-FCB: one constructor of `Instr` per row of spec/opcode_table.json, and the packet in
which an operation reaches the block.

The table has four formats (spec/30_encoding.md R78): WIRE-RX, the five classes of a frame's first byte; WIRE-TX, the two
transmit headers; CMD, the fourteen operations of R83; EVENT, the three reactions to a receive event of R84. -/

namespace Sys2Proof

/-- The kinds of link error the transport reports, the union of the document's two lists (spec/10_state.md R33,
spec/90_conflicts.md C2). The kind never affects what the block does (R182). -/
inductive LinkError where
  | overrun
  | parity
  | framing
  | idle
deriving DecidableEq, Repr

/-- The block's operations. -/
inductive Instr where
  /-- FMT.BAD: a first byte `01xxxxxx`, an unsupported addressing mode (R78, R81, R143). -/
  | fmtBad (x : BitVec 6)
  /-- FMT.N.LB: the first byte `00000000`, no address bytes, explicit length byte (R78). -/
  | fmtNLb
  /-- FMT.A.LB: a first byte `1x000000`, two address bytes and a length byte; `x` is bit 6 (R78). -/
  | fmtALb (x : Bool)
  /-- FMT.N.LIF: a first byte `00LLLLLL` with `L` nonzero, the data length in the format byte (R78). -/
  | fmtNLif (l : BitVec 6)
  /-- FMT.A.LIF: a first byte `1xLLLLLL` with `L` nonzero, two address bytes (R78). -/
  | fmtALif (x : Bool) (l : BitVec 6)
  /-- TXH.SHORT: the one-byte transmit header `00LLLLLL` (R80). -/
  | txhShort (l : BitVec 6)
  /-- TXH.LONG: the two-byte transmit header `00 L`, `L` in 64 to 255 (R80). -/
  | txhLong (l : Byte)
  /-- SUM8 s: the simple 8-bit sum (spec/40_checksums.md R100). -/
  | sum8 (s : List Byte)
  /-- SUMC8 s: the carry-propagating 8-bit sum (R102). -/
  | sumc8 (s : List Byte)
  /-- VSUM8 s, exp: the validator of SUM8 (R104). -/
  | vsum8 (s : List Byte) (expected : Byte)
  /-- VSUMC8 s, exp: the validator of SUMC8 (R105). -/
  | vsumc8 (s : List Byte) (expected : Byte)
  /-- CRC16.B s: the CRC over a byte sequence (spec/41_crc16.md R122). -/
  | crc16b (s : List Byte)
  /-- CRC16.M addr, n: the CRC over a range of the external memory (R124). -/
  | crc16m (addr : Addr) (n : Nat)
  /-- CRC16.V addr, n, exp: the comparator of CRC16.M (R126). -/
  | crc16v (addr : Addr) (n : Nat) (expected : Half)
  /-- FD.RESET: zero the counts of the in-progress frame (spec/42_frame_decoder.md R141). -/
  | fdReset
  /-- FD.FEED b: feed one received byte to the decoder (R142). -/
  | fdFeed (b : Byte)
  /-- FE.SEND p, length: send one frame (spec/43_frame_encoder.md R160). -/
  | feSend (p : List Byte) (length : Nat)
  /-- SY.RESYNC: the resynchronization (spec/44_synchronizer.md R185). -/
  | syResync
  /-- SY.PURGE T: the host's purge (R187). -/
  | syPurge (t : Nat)
  /-- SY.RELEASE: the host's return from the handler (R190). -/
  | syRelease
  /-- SY.REINIT div: reinitialize the link at a new divisor (R192). -/
  | syReinit (div : Nat)
  /-- SY.RXBYTE: the reaction to the event RxByte(b) (R181, R188). -/
  | syRxbyte (b : Byte)
  /-- SY.RXERR: the reaction to the event RxError(k) (R182, R188). -/
  | syRxerr (k : LinkError)
  /-- SY.QUIET: the reaction to the event Quiet(d) (R184, R188). -/
  | syQuiet (d : Nat)
deriving DecidableEq, Repr

/-- An operand of an operation or event, of one of the kinds R83 and R84 name. The spec gives operands no bits
(R83: the operations "are function calls"), so a packet carries them as data beside its selector; log entry 2. -/
inductive Operand where
  | bytes (s : List Byte)
  | byte (b : Byte)
  | half (h : Half)
  | addr (a : Addr)
  | nat (n : Nat)
  | kind (k : LinkError)
deriving DecidableEq, Repr

/-- How an operation reaches the block: its format in spec/opcode_table.json, the word that selects it, and its operands. -/
inductive Packet where
  /-- WIRE-RX: a byte given to the decoder as the first byte of a frame (R78). -/
  | wireRx (b : Byte)
  /-- WIRE-TX: a transmit header, first byte on the wire first (R80). -/
  | wireTx (header : List Byte)
  /-- CMD: an operation by its selector (R83). -/
  | cmd (selector : Byte) (operands : List Operand)
  /-- EVENT: a receive event by its tag (R84). -/
  | event (tag : BitVec 2) (operands : List Operand)
deriving DecidableEq, Repr

/-- Why a packet decodes to no operation. -/
inductive DecodeError where
  /-- A CMD selector that R83 does not list ("the operations of the table below, and no others"). -/
  | undefinedSelector
  /-- An EVENT tag that R84 does not list. -/
  | undefinedTag
  /-- The operands are not those the operation takes. -/
  | operandShape
  /-- A WIRE-TX header of neither form of R80. -/
  | undefinedHeader
deriving DecidableEq, Repr

end Sys2Proof
end

