-- ==== Sys2Proof/WellFormed.lean ====
section
/-! DEFINITION. Which terms of `Instr` stand for something the spec's encodings can carry.

The checks are the conditions spec/30_encoding.md puts on a length field: nonzero where L = 0 selects another row (R74, R78),
and 64 or more in the long transmit header (R80). Every other operand is legal at every value of its type; a send whose payload is too
short and a memory range that wraps are well-formed operations that the machine refuses when it runs them. -/

namespace Sys2Proof

/-- The operation is one its row of spec/opcode_table.json admits. -/
def Instr.wellFormed : Instr → Bool
  | .fmtBad _ => true
  | .fmtNLb => true
  | .fmtALb _ => true
  | .fmtNLif l => l != 0
  | .fmtALif _ l => l != 0
  | .txhShort _ => true
  | .txhLong l => decide (64 ≤ l.toNat)
  | .sum8 _ => true
  | .sumc8 _ => true
  | .vsum8 _ _ => true
  | .vsumc8 _ _ => true
  | .crc16b _ => true
  | .crc16m _ _ => true
  | .crc16v _ _ _ => true
  | .fdReset => true
  | .fdFeed _ => true
  | .feSend _ _ => true
  | .syResync => true
  | .syPurge _ => true
  | .syRelease => true
  | .syReinit _ => true
  | .syRxbyte _ => true
  | .syRxerr _ => true
  | .syQuiet _ => true

end Sys2Proof
end

