-- ==== Sys2Proof/Decode.lean ====
section
/-! DEFINITION. Decoding a packet to an operation, total, rejecting by name; and the encoder.

The first byte of a frame is classified by the table of spec/30_encoding.md R78 in its priority order; the transmit headers are R80, the
selectors R83, the event tags R84. -/

namespace Sys2Proof

/-- The addressing field A = FMT[7:6] (R71). -/
def addressing (b : Byte) : BitVec 2 := b.extractLsb' 6 2

/-- The length-in-format field L = FMT[5:0] (R71). -/
def lengthInFormat (b : Byte) : BitVec 6 := b.extractLsb' 0 6

/-- The format byte with the two fields of R71. -/
def formatByte (a : BitVec 2) (l : BitVec 6) : Byte := a ++ l

/-- The addressing field of a format byte with address bytes, `1x` (R72). -/
def addressedField (x : Bool) : BitVec 2 := if x then 0b11#2 else 0b10#2

/-- The class of a frame's first byte: the rows of R78 tried in ascending priority, each by its mask and match. -/
def classify (b : Byte) : Instr :=
  if b &&& 0xC0#8 = 0x40#8 then .fmtBad (lengthInFormat b)
  else if b &&& 0xFF#8 = 0x00#8 then .fmtNLb
  else if b &&& 0xBF#8 = 0x80#8 then .fmtALb (b.getLsbD 6)
  else if b &&& 0xC0#8 = 0x00#8 then .fmtNLif (lengthInFormat b)
  else .fmtALif (b.getLsbD 6) (lengthInFormat b)

/-- The operation of a transmit header (R80): the long form's first byte is 0 and its second the length, 64 or more. -/
def decodeHeader : List Byte → Except DecodeError Instr
  | [h] => if h &&& 0xC0#8 = 0x00#8 then .ok (.txhShort (lengthInFormat h)) else .error .undefinedHeader
  | [h, l] => if h = 0x00#8 ∧ 64 ≤ l.toNat then .ok (.txhLong l) else .error .undefinedHeader
  | _ => .error .undefinedHeader

/-- An operation that takes no operands. -/
def takeNone (i : Instr) : List Operand → Except DecodeError Instr
  | [] => .ok i
  | _ => .error .operandShape

/-- An operation that takes a byte sequence. -/
def takeBytes (f : List Byte → Instr) : List Operand → Except DecodeError Instr
  | [.bytes s] => .ok (f s)
  | _ => .error .operandShape

/-- An operation that takes a byte sequence and a byte. -/
def takeBytesByte (f : List Byte → Byte → Instr) : List Operand → Except DecodeError Instr
  | [.bytes s, .byte e] => .ok (f s e)
  | _ => .error .operandShape

/-- An operation that takes a byte sequence and a natural number. -/
def takeBytesNat (f : List Byte → Nat → Instr) : List Operand → Except DecodeError Instr
  | [.bytes s, .nat n] => .ok (f s n)
  | _ => .error .operandShape

/-- An operation that takes an address and a natural number. -/
def takeAddrNat (f : Addr → Nat → Instr) : List Operand → Except DecodeError Instr
  | [.addr a, .nat n] => .ok (f a n)
  | _ => .error .operandShape

/-- An operation that takes an address, a natural number and a 16-bit value. -/
def takeAddrNatHalf (f : Addr → Nat → Half → Instr) : List Operand → Except DecodeError Instr
  | [.addr a, .nat n, .half e] => .ok (f a n e)
  | _ => .error .operandShape

/-- An operation that takes a byte. -/
def takeByteOperand (f : Byte → Instr) : List Operand → Except DecodeError Instr
  | [.byte b] => .ok (f b)
  | _ => .error .operandShape

/-- An operation that takes a natural number. -/
def takeNat (f : Nat → Instr) : List Operand → Except DecodeError Instr
  | [.nat n] => .ok (f n)
  | _ => .error .operandShape

/-- An operation that takes a link-error kind. -/
def takeKind (f : LinkError → Instr) : List Operand → Except DecodeError Instr
  | [.kind k] => .ok (f k)
  | _ => .error .operandShape

/-- The operation a selector of R83 names. -/
def decodeCommand (selector : Byte) (operands : List Operand) : Except DecodeError Instr :=
  match selector.toNat with
  | 0x01 => takeBytes .sum8 operands
  | 0x02 => takeBytes .sumc8 operands
  | 0x03 => takeBytesByte .vsum8 operands
  | 0x04 => takeBytesByte .vsumc8 operands
  | 0x08 => takeBytes .crc16b operands
  | 0x09 => takeAddrNat .crc16m operands
  | 0x0A => takeAddrNatHalf .crc16v operands
  | 0x10 => takeNone .fdReset operands
  | 0x11 => takeByteOperand .fdFeed operands
  | 0x18 => takeBytesNat .feSend operands
  | 0x20 => takeNone .syResync operands
  | 0x21 => takeNat .syPurge operands
  | 0x22 => takeNone .syRelease operands
  | 0x23 => takeNat .syReinit operands
  | _ => .error .undefinedSelector

/-- The reaction an event tag of R84 names. -/
def decodeEvent (tag : BitVec 2) (operands : List Operand) : Except DecodeError Instr :=
  match tag.toNat with
  | 0 => takeByteOperand .syRxbyte operands
  | 1 => takeKind .syRxerr operands
  | 2 => takeNat .syQuiet operands
  | _ => .error .undefinedTag

/-- The operation a packet stands for. -/
def decode : Packet → Except DecodeError Instr
  | .wireRx b => .ok (classify b)
  | .wireTx header => decodeHeader header
  | .cmd selector operands => decodeCommand selector operands
  | .event tag operands => decodeEvent tag operands

/-! ## Encoding -/

/-- The packet of an operation, written from the same tables. -/
def encode : Instr → Packet
  | .fmtBad x => .wireRx (formatByte 0b01#2 x)
  | .fmtNLb => .wireRx (formatByte 0b00#2 0#6)
  | .fmtALb x => .wireRx (formatByte (addressedField x) 0#6)
  | .fmtNLif l => .wireRx (formatByte 0b00#2 l)
  | .fmtALif x l => .wireRx (formatByte (addressedField x) l)
  | .txhShort l => .wireTx [formatByte 0b00#2 l]
  | .txhLong l => .wireTx [0x00#8, l]
  | .sum8 s => .cmd 0x01#8 [.bytes s]
  | .sumc8 s => .cmd 0x02#8 [.bytes s]
  | .vsum8 s e => .cmd 0x03#8 [.bytes s, .byte e]
  | .vsumc8 s e => .cmd 0x04#8 [.bytes s, .byte e]
  | .crc16b s => .cmd 0x08#8 [.bytes s]
  | .crc16m a n => .cmd 0x09#8 [.addr a, .nat n]
  | .crc16v a n e => .cmd 0x0A#8 [.addr a, .nat n, .half e]
  | .fdReset => .cmd 0x10#8 []
  | .fdFeed b => .cmd 0x11#8 [.byte b]
  | .feSend p n => .cmd 0x18#8 [.bytes p, .nat n]
  | .syResync => .cmd 0x20#8 []
  | .syPurge t => .cmd 0x21#8 [.nat t]
  | .syRelease => .cmd 0x22#8 []
  | .syReinit d => .cmd 0x23#8 [.nat d]
  | .syRxbyte b => .event 0#2 [.byte b]
  | .syRxerr k => .event 1#2 [.kind k]
  | .syQuiet d => .event 2#2 [.nat d]

/-! ## Words of the opcode table -/

/-- The operands of a selector, each of them zero: the empty sequence, 0. -/
def zeroOperands (selector : Byte) : List Operand :=
  if selector = 0x01#8 ∨ selector = 0x02#8 ∨ selector = 0x08#8 then [.bytes []]
  else if selector = 0x03#8 ∨ selector = 0x04#8 then [.bytes [], .byte 0#8]
  else if selector = 0x09#8 then [.addr 0#32, .nat 0]
  else if selector = 0x0A#8 then [.addr 0#32, .nat 0, .half 0#16]
  else if selector = 0x11#8 then [.byte 0#8]
  else if selector = 0x18#8 then [.bytes [], .nat 0]
  else if selector = 0x21#8 ∨ selector = 0x23#8 then [.nat 0]
  else []

/-- The operand of an event tag, zero. -/
def zeroEventOperands (tag : BitVec 2) : List Operand :=
  if tag = 0#2 then [.byte 0#8] else if tag = 1#2 then [.kind .overrun] else [.nat 0]

/-- The selectors R83 assigns. -/
def isSelector (b : Byte) : Bool :=
  b ∈ [0x01#8, 0x02#8, 0x03#8, 0x04#8, 0x08#8, 0x09#8, 0x0A#8, 0x10#8, 0x11#8, 0x18#8, 0x20#8, 0x21#8, 0x22#8, 0x23#8]

/-- The packet of a word of spec/opcode_table.json. The table's formats share their bit patterns (0x01 is SUM8, FMT.N.LIF with L = 1
and TXH.SHORT with L = 1), and a word alone does not say its format: a 2-bit word is an event; a 16-bit word is the long transmit header, its first wire byte in
bits 15:8 as the row's pattern has it; an 8-bit word is the command whose selector it equals, and else a frame's first byte (log entry 4). -/
def packetOfWord (nbits w : Nat) : Option Packet :=
  if nbits ≤ 2 then some (.event (BitVec.ofNat 2 w) (zeroEventOperands (BitVec.ofNat 2 w)))
  else if nbits ≤ 8 then
    let b := BitVec.ofNat 8 w
    if isSelector b then some (.cmd b (zeroOperands b)) else some (.wireRx b)
  else if nbits ≤ 16 then some (.wireTx [BitVec.ofNat 8 (w / 256), BitVec.ofNat 8 w])
  else none

/-- The operation the decoder reads from a word of spec/opcode_table.json, none where it refuses. -/
def decodeTableWord (nbits w : Nat) : Option Instr :=
  match packetOfWord nbits w with
  | none => none
  | some p => (decode p).toOption

end Sys2Proof
end

