-- ==== Sys2Proof/Machine/State.lean ====
section
/-! DEFINITION. The state of NPK-FCB, its value after reset, and the reasons an operation can stop.

Every row of the inventory of spec/10_state.md R20 is a field here, under the document's name in the field's docstring. Beside them stand the model's own
fields: the open parameters, the external memory, the inputs not yet taken, the record of what the ports have put out, and
the counter of free values. -/

namespace Sys2Proof.Machine

/-- The synchronizer's mode, `SY.mode` (R31). -/
inductive Mode where
  /-- The block takes receive events and feeds bytes to the decoder. -/
  | run
  /-- A frame is done and the host is servicing it; no event is taken. -/
  | hold
  /-- Everything received is discarded until a quiet period has passed. -/
  | purge
deriving DecidableEq, Repr

/-- Where a purge returns to, `SY.pret` (R20, R31): one bit. -/
inductive PurgeReturn where
  | run
  | hold
deriving DecidableEq, Repr

/-- `SS.link` (R32). -/
inductive Link where
  | disconnected
  | connected
deriving DecidableEq, Repr

/-- `SS.flash` (R32). -/
inductive Flash where
  | locked
  | unlocked
deriving DecidableEq, Repr

/-- The cause tag of a decoder error, a device of the model's record (spec/60_exceptions.md R240, R255). -/
inductive Cause where
  /-- A first byte in 0x40 to 0x7F. -/
  | eFmt
  /-- The last byte differs from the sum of the bytes before it. -/
  | eCks
deriving DecidableEq, Repr

/-- The result of `FD.FEED` (spec/42_frame_decoder.md R142). -/
inductive FeedResult where
  | needMore
  | done
  | error (c : Cause)
deriving DecidableEq, Repr

/-- The result an operation gives its caller (R30: an output of the invocation, not state). -/
inductive Result where
  | byte (b : Byte)
  | bool (b : Bool)
  | half (h : Half)
  | feed (r : FeedResult)
deriving DecidableEq, Repr

/-- What the host can read of the in-progress frame (spec/20_memory.md R53: all six fields). -/
inductive HostRead where
  | hlenExp
  | dlenExp
  | hrx
  | drx
  | hbuf (i : Fin Config.hbufSize)
  | pbuf (j : Fin Config.pbufSize)
deriving DecidableEq, Repr

/-- One thing a port of the block puts out (spec/10_state.md R33 to R37), for the ordered record `trace`. -/
inductive Output where
  /-- The result of an operation, given to its caller (R30). -/
  | result (r : Result)
  /-- `TxByte(b)`: a byte handed to the transport (R34). -/
  | txByte (b : Byte)
  /-- The wait until the transport reports the last bit sent (spec/43_frame_encoder.md R166). -/
  | awaitLastBit
  /-- The level `SY.rxen` is driven by a send (R37, R165). -/
  | rxen (on : Bool)
  /-- `MemRead(addr, 1)` on the memory read port (R35). -/
  | memRead (a : Addr)
  /-- `frame_done(F)` to the host (R36). -/
  | frameDone
  /-- `session_reset` to the host (R36). -/
  | sessionReset
  /-- `link_reset` to the transport (R37). -/
  | linkReset
  /-- `link_reinit(divisor)` to the transport (R37). -/
  | linkReinit (div : Nat)
  /-- What a host read of the frame gives (spec/20_memory.md R53). -/
  | hostRead (r : HostRead) (value : Nat)
deriving DecidableEq, Repr

/-- What the host does to the session state it owns (spec/45_host_context.md R202, R206, R233). -/
inductive SessionAct where
  /-- A StartCommunication exchange. -/
  | startCommunication
  /-- A prepare-to-reflash request that succeeds. -/
  | prepareToReflash
deriving DecidableEq, Repr

/-- One thing the environment presents to the block: an operation or a receive event as a packet, or an act that is no operation of the table. -/
inductive Input where
  /-- An operation invoked or a receive event presented. -/
  | packet (p : Packet)
  /-- The host reads the in-progress frame (R53). -/
  | hostRead (r : HostRead)
  /-- The host moves the session state (R32: "They belong to the host"). -/
  | session (a : SessionAct)
  /-- The platform's memory changes at an address, by the host's own access path (R57). -/
  | platformWrite (a : Addr) (b : Byte)
  /-- Reset of the block (spec/70_reset_and_hazards.md R270). -/
  | reset
deriving DecidableEq, Repr

/-- The In-progress Frame `F` (R21 to R26). -/
structure Frame where
  /-- `F.hlen_exp`, `expected_header_len`: 0 before the first byte, then 1 to 4 (R21). -/
  hlenExp : BitVec 3
  /-- `F.dlen_exp`, `expected_data_len`: 0 to 255 (R22). -/
  dlenExp : Byte
  /-- `F.hrx`, `header_bytes_received`: 0 to 4 (R23). -/
  hrx : BitVec 3
  /-- `F.drx`, `data_bytes_received`: 0 to 256 (R24). -/
  drx : BitVec 9
  /-- `F.hbuf`, `header_buffer` (R25). -/
  hbuf : Vector Byte Config.hbufSize
  /-- `F.pbuf`, `payload_buffer` (R26). -/
  pbuf : Vector Byte Config.pbufSize
deriving DecidableEq, Repr

/-- The listed part of the external memory: addresses strictly rising, no entry equal to what an unlisted address reads as
(`Memory.wf`, Machine/Ops.lean; log entry 6). -/
abbrev Memory := List Host.Cell

/-- The state of the block and of what stands at its ports. -/
structure State where
  /-- `F`, the In-progress Frame (R20). -/
  frame : Frame
  /-- `SY.mode` (R31). -/
  mode : Mode
  /-- `SY.pT`, the quiet period this purge waits for (R31). -/
  pT : Nat
  /-- `SY.pret`, the mode the purge returns to (R31). -/
  pret : PurgeReturn
  /-- `SY.rxen`, the receiver-enable flag (R39). -/
  rxen : Bool
  /-- `SS.link` (R32). -/
  link : Link
  /-- `SS.flash` (R32). -/
  flash : Flash
  /-- `ACC8`, the working accumulator of the checksum operations (R38). -/
  acc8 : Byte
  /-- `CRC`, the working accumulator of the CRC operations (R38). -/
  crc : Half
  /-- The open parameters of spec/00_scope.md R8 (the model's own field, log entry 3). -/
  params : Params
  /-- The external memory `mem` (R54; the model's own field, log entry 6). -/
  mem : Memory
  /-- The inputs not yet taken, next first (R33, R36; the model's own field, log entry 9). -/
  inputs : List Input
  /-- What the ports have put out since reset, oldest first (R34 to R37; the model's own field, log entry 1). -/
  trace : List Output
  /-- The silence the Quiet events of this purge have reported since its start or its last byte or error (the model's own field: adjacent Quiet
events mean one of the summed duration, spec/44_synchronizer.md R176; log entry 14). -/
  quiet : Nat
  /-- In RUN the decoder's latest result, given to a caller of FD.FEED, is an Error that the caller still owes a resynchronization
(spec/42_frame_decoder.md R149; the model's own field, log entry 11). -/
  owesResync : Bool
  /-- The counter of free values drawn (the model's own field, log entry 5). -/
  fresh : Nat
deriving DecidableEq, Repr

/-- The frame after reset: all counts zero, the buffers unspecified and named zero here (R41, log entry 7). -/
def Frame.reset : Frame :=
  { hlenExp := 0#3, dlenExp := 0#8, hrx := 0#3, drx := 0#9, hbuf := Vector.replicate Config.hbufSize 0#8,
    pbuf := Vector.replicate Config.pbufSize 0#8 }

/-- The block right after reset (R41): mode RUN, `SY.pT` = T_IDLE, `SY.pret` RUN, `SY.rxen` 1, Disconnected, Locked, the
transmit log empty and no receive event taken. -/
def State.reset : State :=
  { frame := Frame.reset, mode := .run, pT := Params.default.tIdle, pret := .run, rxen := true, link := .disconnected,
    flash := .locked, acc8 := 0#8, crc := 0#16, params := Params.default, mem := [], inputs := [], trace := [],
    quiet := 0, owesResync := false, fresh := 0 }

/-- The faults of the machine: none. The block has no exceptions, interrupts or traps (spec/60_exceptions.md), its memory port is
total and cannot fault (R62, R124), and its buffer indexes cannot leave the buffers (R51, R52). The decoder's `Error` is a result after which the block
goes on (R240), not a fault. -/
inductive Fault where
deriving DecidableEq, Repr

/-- Why the machine refuses: the spec's "refusal", an invocation it gives no meaning (spec/00_scope.md R12, spec/60_exceptions.md R244), or a
packet that stands for no operation. Every one is safe: nothing is proved of what the hardware does there. -/
inductive Refusal where
  /-- An operation without a meaning in the model; raised by an arm of `exec` only. No arm raises it. Safe. -/
  | notModelled (mnemonic : String)
  /-- A byte fed to a frame that is already complete (spec/42_frame_decoder.md R148). Raised by the decoder. Safe. -/
  | frameComplete
  /-- A send outside mode HOLD (spec/43_frame_encoder.md R168). Raised by FE.SEND and the transmit headers. Safe. -/
  | sendOutsideHold
  /-- A send whose payload is shorter than the clamped length (R168). Raised by FE.SEND. Safe. -/
  | payloadShort
  /-- TXH.LONG with a length below 64, which the encoder never emits (spec/30_encoding.md R80). Safe. -/
  | shortLengthInLongHeader
  /-- SY.PURGE outside mode HOLD (spec/44_synchronizer.md R187). Safe. -/
  | purgeOutsideHold
  /-- SY.RELEASE outside mode HOLD (R190). Safe. -/
  | releaseOutsideHold
  /-- SY.REINIT outside mode HOLD (R192). Safe. -/
  | reinitOutsideHold
  /-- SY.RESYNC outside mode RUN, where it never runs (spec/44_synchronizer.md R185, spec/60_exceptions.md R250). Safe. -/
  | resyncOutsideRun
  /-- SY.RESYNC in RUN with no error behind it: only an error invokes it (spec/44_synchronizer.md R177, R185). Safe. -/
  | resyncWithoutError
  /-- A CRC range that passes 0xFFFFFFFF (spec/20_memory.md R58). Raised by CRC16.M and CRC16.V. Safe. -/
  | rangeWraps
  /-- A host read of the frame outside mode HOLD (spec/20_memory.md R53, spec/60_exceptions.md R244). Raised by the environment's act. Safe. -/
  | hostReadOutsideHold
  /-- A host act on the session outside mode HOLD, where the host does not run (spec/45_host_context.md R200). Safe. -/
  | hostActOutsideHold
  /-- A packet that decodes to no operation (spec/30_encoding.md R83, R84). Raised by `step`. Safe. -/
  | undecodable (e : DecodeError)
deriving DecidableEq, Repr

end Sys2Proof.Machine
end

