-- ==== Sys2Proof/Machine/Operands.lean ====
section
/-! DEFINITION. The operand forms: the header a format byte announces, the data length, the clamped length of a send and the part of the payload it sends, the
range of a CRC over memory, and the big-endian 16-bit value.

Sections 1 to 3 of spec/30_encoding.md, spec/43_frame_encoder.md R162, spec/20_memory.md R55, R58, R59. -/

namespace Sys2Proof.Machine

/-- `hlen(FMT)` (spec/30_encoding.md R75), used on format bytes whose addressing field is not 0b01. -/
def headerLength (b : Byte) : Nat :=
  1 + (if b.getLsbD 7 then 2 else 0) + (if lengthInFormat b = 0#6 then 1 else 0)

/-- The addressing mode the decoder rejects, `b[7:6] = 0b01` (R72). -/
def badFormat (b : Byte) : Bool := addressing b == 0b01#2

/-- The data length a nonzero length in format stands for, `zext_8(FMT[5:0])` (R79). -/
def formatDataLength (b : Byte) : Byte := (lengthInFormat b).zeroExtend 8

/-- `Lc`, the clamped length of a send (spec/43_frame_encoder.md R162). -/
def clampLength (length : Nat) : Nat := min length Config.maxDataLen

/-- The payload bytes a send carries, `p[0 .. Lc - 1]` (R160). -/
def sentPayload (p : List Byte) (length : Nat) : List Byte := p.take (clampLength length)

/-- The range of `n` bytes at `addr` passes 0xFFFFFFFF (spec/20_memory.md R58); an empty range never does (spec/41_crc16.md R125). -/
def rangeWraps (addr : Addr) (n : Nat) : Bool := decide (0 < n ∧ Config.maxAddr < addr.toNat + n - 1)

/-- The `n` addresses from `addr` on, ascending (R55). -/
def rangeAddresses (addr : Addr) : Nat → List Addr
  | 0 => []
  | n + 1 => addr :: rangeAddresses (addr + 1#32) n

/-- A 16-bit value from two bytes, the most significant first (R59). -/
def bigEndian16 (hi lo : Byte) : Half := hi ++ lo

end Sys2Proof.Machine
end

