-- ==== Sys2Proof/Machine/Flags.lean ====
section
/-! DEFINITION. The conditions of the block.

The block has no latched status flags (spec/10_state.md R30); what it has are the three predicates on the in-progress frame of R29 and the comparison of a
validator. -/

namespace Sys2Proof.Machine

/-- `first(F)`: the next byte is the first of a frame (R29). -/
def Frame.first (f : Frame) : Bool := f.hrx == 0#3

/-- `header_complete(F)` (R29). -/
def Frame.headerComplete (f : Frame) : Bool := f.hrx != 0#3 && f.hrx == f.hlenExp

/-- `complete(F)`, "structurally complete" (R29). -/
def Frame.complete (f : Frame) : Bool := f.headerComplete && f.drx.toNat == f.dlenExp.toNat + 1

/-- The format byte the frame holds, `hbuf[0]` (spec/10_state.md R25). -/
def Frame.format (f : Frame) : Byte := f.hbuf[0]

/-- The header bytes the frame's counts announce, `hbuf[0 .. hlen_exp - 1]` (spec/42_frame_decoder.md R147). -/
def Frame.header (f : Frame) : List Byte := f.hbuf.toList.take f.hlenExp.toNat

/-- The data bytes the frame's counts announce, `pbuf[0 .. dlen_exp - 1]` (R147). -/
def Frame.data (f : Frame) : List Byte := f.pbuf.toList.take f.dlenExp.toNat

end Sys2Proof.Machine
end

