-- ==== Sys2Proof/Machine/Ops.lean ====
section
/-! DEFINITION. The named operations over memory, the ports, the accumulators and the frame, and the block's one trap: the resynchronization and the return
from it. -/

namespace Sys2Proof.Machine

/-! ## The external memory -/

/-- The byte at an address: what the state lists there, else the platform's byte (spec/20_memory.md R54, R62; log entry 6). -/
def memRead : Memory → Nat → Byte
  | [], a => Config.platformByte a
  | (k, b) :: rest, a => if k = a then b else memRead rest a

/-- The memory with one byte changed, in canonical form: a byte equal to the platform's is not listed. -/
def memWrite : Memory → Nat → Byte → Memory
  | [], a, b => if b = Config.platformByte a then [] else [(a, b)]
  | (k, v) :: rest, a, b =>
    if a < k then (if b = Config.platformByte a then (k, v) :: rest else (a, b) :: (k, v) :: rest)
    else if a = k then (if b = Config.platformByte a then rest else (a, b) :: rest)
    else (k, v) :: memWrite rest a b

/-- The canonical form: addresses strictly rising and below 2^32, no entry equal to what an unlisted address reads as. -/
abbrev Memory.wf (m : Memory) : Prop :=
  m.Pairwise (fun c d => c.1 < d.1) ∧ ∀ c ∈ m, c.1 ≤ Config.maxAddr ∧ c.2 ≠ Config.platformByte c.1

/-- The bytes at a list of addresses, in its order. -/
def memBytes (m : Memory) (addrs : List Addr) : List Byte := addrs.map (fun a => memRead m a.toNat)

/-! ## The ports -/

/-- Append to the record of the ports. -/
def State.emit (s : State) (o : Output) : State := { s with trace := s.trace ++ [o] }

/-- Append several outputs, in order. -/
def State.emitAll (s : State) (os : List Output) : State := { s with trace := s.trace ++ os }

/-- The byte of a transmission. -/
def Output.txByte? : Output → Option Byte
  | .txByte b => some b
  | _ => none

/-- The transmit log: the bytes put on the wire, in order (spec/10_state.md R34). -/
def State.txLog (s : State) : List Byte := s.trace.filterMap Output.txByte?

/-- Give the caller the result of an operation (R30). -/
def State.answer (s : State) (r : Result) : State := s.emit (.result r)

/-- `link_reset`: clear the transport's error condition and enable reception (R37, spec/44_synchronizer.md R185). -/
def linkReset (s : State) : State := { s.emit .linkReset with rxen := true }

/-- Transmit bytes with the receiver held off, and do not go on before the last bit is out
(spec/43_frame_encoder.md R165, R166; log entry 13). -/
def transmit (bytes : List Byte) (s : State) : State :=
  { s.emitAll (.rxen false :: bytes.map .txByte ++ [.awaitLastBit, .rxen true]) with rxen := true }

/-! ## The accumulators -/

/-- After a checksum operation the value in `ACC8` does not survive (spec/10_state.md R38): a free value. -/
def spendAcc8 (s : State) : State := { s with acc8 := Config.freeByte s.fresh, fresh := s.fresh + 1 }

/-- After a CRC operation the value in `CRC` does not survive (R38): a free value. -/
def spendCrc (s : State) : State := { s with crc := Config.freeHalf s.fresh, fresh := s.fresh + 1 }

/-! ## The in-progress frame -/

/-- The frame reset: the four counts zero, the buffers not written (spec/42_frame_decoder.md R141). -/
def Frame.zeroCounts (f : Frame) : Frame := { f with hlenExp := 0#3, dlenExp := 0#8, hrx := 0#3, drx := 0#9 }

/-- `FD.RESET` on the state. -/
def resetFrame (s : State) : State := { s with frame := s.frame.zeroCounts }

/-! ## The trap: resynchronization -/

/-- The mode a purge returns to. -/
def PurgeReturn.toMode : PurgeReturn → Mode
  | .run => .run
  | .hold => .hold

/-- Enter a purge that waits for `t` and returns to `ret` (spec/44_synchronizer.md R185, R187); its silence counts from here. -/
def enterPurge (t : Nat) (ret : PurgeReturn) (s : State) : State := { s with pT := t, pret := ret, mode := .purge, quiet := 0 }

/-- A byte or an error in a purge: the activity starts the quiet interval again (R188). -/
def breakQuiet (s : State) : State := { s with quiet := 0 }

/-- A Quiet event in a purge that is still too short: an adjacent one adds to it (R176). -/
def addQuiet (d : Nat) (s : State) : State := { s with quiet := s.quiet + d }

/-- Force the session to Disconnected and Locked, raising `session_reset` (spec/10_state.md R32, R36). -/
def forceSession (s : State) : State := { s.emit .sessionReset with link := .disconnected, flash := .locked }

/-- The block's one trap (spec/60_exceptions.md R247), in the order of the pseudocode of R185: the session is forced down, the frame discarded, the
link reset, and the line purged for T_IDLE, to return to RUN. Nothing is saved, and no error is left unanswered. -/
def resync (s : State) : State :=
  { enterPurge s.params.tIdle .run (linkReset (resetFrame (forceSession s))) with owesResync := false }

/-- The return from a purge (R188, R248): only the mode changes, and the silence is used up. -/
def endPurge (s : State) : State := { s with mode := s.pret.toMode, quiet := 0 }

end Sys2Proof.Machine
end

