-- ==== Sys2Proof/Machine/Crc.lean ====
section
/-! DEFINITION. The CRC-16 generator: CRC16.B, CRC16.M and CRC16.V (spec/41_crc16.md), over the open parameters, and the two equivalent forms of R123 and R127.

The arithmetic is the spec's general knowledge under its decision D4 and no statement about the firmware (R120; log entry 20). -/

namespace Sys2Proof.Machine

/-- The bits of a byte in reverse order, `rev8` (spec/00_scope.md R11). -/
def rev8 (b : Byte) : Byte := b.reverse

/-- The bits of a 16-bit word in reverse order, `rev16` (R11). -/
def rev16 (w : Half) : Half := w.reverse

/-- One shift of the register (R122). -/
def crcShift (c : Half) : Half := if c.getLsbD 15 then (c <<< 1) ^^^ Config.crcPoly else c <<< 1

/-- Several shifts of the register. -/
def crcShifts : Nat → Half → Half
  | 0, c => c
  | n + 1, c => crcShifts n (crcShift c)

/-- A byte as it enters the generator (R121): reflected when CRC_REFIN is set. -/
def crcInByte (p : Params) (b : Byte) : Byte := if p.crcRefin then rev8 b else b

/-- The byte step of R122: the byte into bits 15:8, then eight shifts. -/
def crcByte (p : Params) (c : Half) (b : Byte) : Half := crcShifts 8 (c ^^^ (crcInByte p b ++ 0#8))

/-- The output stage of R122: CRC_REFOUT, then CRC_XOROUT. -/
def crcOut (p : Params) (c : Half) : Half := (if p.crcRefout then rev16 c else c) ^^^ p.crcXorout

/-- CRC16.B (R122). -/
def crc16 (p : Params) (s : List Byte) : Half := crcOut p (s.foldl (crcByte p) p.crcInit)

/-- One input bit of the bit-serial form (R123). -/
def crcBit (c : Half) (d : Bool) : Half :=
  if xor (c.getLsbD 15) d then (c <<< 1) ^^^ Config.crcPoly else c <<< 1

/-- The bits of a byte, the most significant first (R123). -/
def msbFirst (b : Byte) : List Bool := (List.range 8).map (fun i => b.getLsbD (7 - i))

/-- The table of R127: the register after the eight shifts from `i << 8`. -/
def crcTab (i : Byte) : Half := crcShifts 8 (i ++ 0#8)

/-- The table form of the byte step (R127). -/
def crcTableByte (p : Params) (c : Half) (b : Byte) : Half :=
  (c <<< 8) ^^^ crcTab (c.extractLsb' 8 8 ^^^ crcInByte p b)

/-- CRC16.M on the memory (R124): the bytes of the range in ascending order. -/
def crcMem (p : Params) (m : Memory) (addr : Addr) (n : Nat) : Half := crc16 p (memBytes m (rangeAddresses addr n))

/-- Read a range through the memory port, each byte once, ascending (spec/20_memory.md R55). -/
def readRange (addr : Addr) (n : Nat) (s : State) : State := s.emitAll ((rangeAddresses addr n).map .memRead)

/-- The meaning of CRC16.B (R122). -/
def execCrc16b (bs : List Byte) (s : State) : Host.Outcome State Fault Refusal :=
  .next (spendCrc (s.answer (.half (crc16 s.params bs))))

/-- The meaning of CRC16.M (R124, R125); a wrapping range is refused (R58). -/
def execCrc16m (addr : Addr) (n : Nat) (s : State) : Host.Outcome State Fault Refusal :=
  if rangeWraps addr n then .refused .rangeWraps
  else .next (spendCrc ((readRange addr n s).answer (.half (crcMem s.params s.mem addr n))))

/-- The meaning of CRC16.V (R126): the comparison of CRC16.M's result. -/
def execCrc16v (addr : Addr) (n : Nat) (expected : Half) (s : State) : Host.Outcome State Fault Refusal :=
  if rangeWraps addr n then .refused .rangeWraps
  else .next (spendCrc ((readRange addr n s).answer (.bool (crcMem s.params s.mem addr n == expected))))

end Sys2Proof.Machine
end

