-- ==== Sys2Proof/Machine/Checksum.lean ====
section
/-! DEFINITION. The checksum unit: SUM8, SUMC8 and their validators (spec/40_checksums.md). -/

namespace Sys2Proof.Machine

/-- SUM8: the sum of the bytes modulo 256 (R100). -/
def sum8 (s : List Byte) : Byte := s.foldl (fun acc b => acc + b) 0#8

/-- One step of SUMC8: add in 9 bits, and add a carry out of bit 7 back in at bit 0 (R102). -/
def addEndAround (acc b : Byte) : Byte :=
  let t := acc.toNat + b.toNat
  if 0xFF < t then BitVec.ofNat 8 (t + 1) else BitVec.ofNat 8 t

/-- SUMC8: the sum with end-around carry (R102). -/
def sumc8 (s : List Byte) : Byte := s.foldl addEndAround 0#8

/-- VSUM8 (R104). -/
def vsum8 (s : List Byte) (expected : Byte) : Bool := sum8 s == expected

/-- VSUMC8 (R105). -/
def vsumc8 (s : List Byte) (expected : Byte) : Bool := sumc8 s == expected

/-- The meaning of SUM8 (R100). -/
def execSum8 (bs : List Byte) (s : State) : Host.Outcome State Fault Refusal :=
  .next (spendAcc8 (s.answer (.byte (sum8 bs))))

/-- The meaning of SUMC8 (R102). -/
def execSumc8 (bs : List Byte) (s : State) : Host.Outcome State Fault Refusal :=
  .next (spendAcc8 (s.answer (.byte (sumc8 bs))))

/-- The meaning of VSUM8 (R104). -/
def execVsum8 (bs : List Byte) (expected : Byte) (s : State) : Host.Outcome State Fault Refusal :=
  .next (spendAcc8 (s.answer (.bool (vsum8 bs expected))))

/-- The meaning of VSUMC8 (R105). -/
def execVsumc8 (bs : List Byte) (expected : Byte) (s : State) : Host.Outcome State Fault Refusal :=
  .next (spendAcc8 (s.answer (.bool (vsumc8 bs expected))))

end Sys2Proof.Machine
end

