-- ==== Sys2Proof/Machine/Encoder.lean ====
section
/-! DEFINITION. The frame encoder: FE.SEND and the two transmit headers (spec/43_frame_encoder.md, spec/30_encoding.md R80). -/

namespace Sys2Proof.Machine

/-- The transmit header of a clamped length (R80): TXH.SHORT up to 63, TXH.LONG above. -/
def txHeader (lc : Nat) : List Byte :=
  if lc ≤ Config.lifMax then [BitVec.ofNat 8 lc] else [0x00#8, BitVec.ofNat 8 lc]

/-- The checksum byte of a send, `(Lc + SUM8 d) & 0xFF` (R163). -/
def txChecksum (lc : Nat) (d : List Byte) : Byte := BitVec.ofNat 8 (lc + (sum8 d).toNat)

/-- `ENCODE(p, length)`: the bytes a send appends to the transmit log (R161). For a payload shorter than the clamped length, where a send is refused
(R168), the function is total by the model's choice and gives the announced length with the bytes there are (DESIGN CHOICE, log entry 28). -/
def encodeFrame (p : List Byte) (length : Nat) : List Byte :=
  txHeader (clampLength length) ++ sentPayload p length ++ [txChecksum (clampLength length) (sentPayload p length)]

/-- The meaning of FE.SEND (R160): in HOLD, with a payload of at least the clamped length, the whole frame is transmitted with the receiver held off. -/
def execFeSend (p : List Byte) (length : Nat) (s : State) : Host.Outcome State Fault Refusal :=
  if s.mode ≠ .hold then .refused .sendOutsideHold
  else if p.length < clampLength length then .refused .payloadShort
  else .next (spendAcc8 (transmit (encodeFrame p length) s))

/-- The meaning of TXH.SHORT: the one-byte header put on the wire, under the conditions of a send (R80, R168; log entry 12). -/
def execTxhShort (l : BitVec 6) (s : State) : Host.Outcome State Fault Refusal :=
  if s.mode ≠ .hold then .refused .sendOutsideHold else .next (transmit [formatByte 0b00#2 l] s)

/-- The meaning of TXH.LONG: the two-byte header put on the wire, under the conditions of a send; a length byte below 64, which the
encoder never emits, is refused (R80, R168; log entry 12). -/
def execTxhLong (l : Byte) (s : State) : Host.Outcome State Fault Refusal :=
  if s.mode ≠ .hold then .refused .sendOutsideHold
  else if l.toNat ≤ Config.lifMax then .refused .shortLengthInLongHeader
  else .next (transmit [0x00#8, l] s)

end Sys2Proof.Machine
end

