-- ==== Sys2Proof/Machine/Decoder.lean ====
section
/-! DEFINITION. The frame decoder: FD.RESET, FD.FEED and the five classes of a frame's first byte (spec/42_frame_decoder.md, spec/30_encoding.md R78). -/

namespace Sys2Proof.Machine

/-- Step 1 on an accepted format byte: the expected header length, and the data length when the format byte carries it (R143). -/
def startFrame (b : Byte) (f : Frame) : Frame :=
  { f with
    hlenExp := BitVec.ofNat 3 (headerLength b)
    dlenExp := if lengthInFormat b = 0#6 then f.dlenExp else formatDataLength b }

/-- Step 2: the byte goes to `hbuf[hrx]`; the last header byte is the data length when the format byte's low six bits are zero (R144, R145). -/
def takeHeaderByte (b : Byte) (f : Frame) : Frame :=
  let g := { f with hbuf := f.hbuf.setIfInBounds f.hrx.toNat b, hrx := f.hrx + 1#3 }
  if g.hrx = g.hlenExp ∧ lengthInFormat g.format = 0#6 then { g with dlenExp := b } else g

/-- Step 3: the byte goes to `pbuf[drx]` (R146). -/
def takeDataByte (b : Byte) (f : Frame) : Frame :=
  { f with pbuf := f.pbuf.setIfInBounds f.drx.toNat b, drx := f.drx + 1#9 }

/-- The end of step 3: when the frame is structurally complete, the checksum decides (R147). -/
def checkFrame (b : Byte) (g : Frame) : FeedResult :=
  if g.drx.toNat = g.dlenExp.toNat + 1 then
    (if vsum8 (g.header ++ g.data) b then .done else .error .eCks)
  else .needMore

/-- Steps 2 and 3 of R142. -/
def takeByte (b : Byte) (f : Frame) : FeedResult × Frame :=
  if f.hrx < f.hlenExp then (.needMore, takeHeaderByte b f)
  else (checkFrame b (takeDataByte b f), takeDataByte b f)

/-- FD.FEED on the frame (R142); none where it is refused because the frame is complete (R148). -/
def feed (b : Byte) (f : Frame) : Option (FeedResult × Frame) :=
  if f.complete then none
  else if f.first then
    (if badFormat b then some (.error .eFmt, f) else some (takeByte b (startFrame b f)))
  else some (takeByte b f)

/-- The result came from the checksum comparison, which uses `ACC8`. -/
def FeedResult.usesSum : FeedResult → Bool
  | .done => true
  | .error .eCks => true
  | .error .eFmt => false
  | .needMore => false

/-- The result is an Error. -/
def FeedResult.isError : FeedResult → Bool
  | .error _ => true
  | .done => false
  | .needMore => false

/-- FD.FEED on the state: the frame, and the result given to the caller and recorded (R30, R240); in RUN the caller owes a
resynchronization after an Error (R149). -/
def feedState (b : Byte) (s : State) : Option (FeedResult × State) :=
  match feed b s.frame with
  | none => none
  | some (r, f) =>
    let t := State.answer { s with frame := f, owesResync := r.isError && s.mode == .run } (.feed r)
    some (r, if r.usesSum then spendAcc8 t else t)

/-- FD.FEED as an operation of its own: the caller owes the rest (R149). -/
def feedOp (b : Byte) (s : State) : Host.Outcome State Fault Refusal :=
  match feedState b s with
  | none => .refused .frameComplete
  | some (_, t) => .next t

/-- The meaning of FD.RESET (R141). -/
def execFdReset (s : State) : Host.Outcome State Fault Refusal := .next (resetFrame s)

/-- The meaning of FD.FEED (R142). -/
def execFdFeed (b : Byte) (s : State) : Host.Outcome State Fault Refusal := feedOp b s

/-- The meaning of FMT.BAD: a byte `01xxxxxx` given to the decoder (R143). -/
def execFmtBad (x : BitVec 6) (s : State) : Host.Outcome State Fault Refusal := feedOp (formatByte 0b01#2 x) s

/-- The meaning of FMT.N.LB: the byte `00000000` given to the decoder (R143). -/
def execFmtNLb (s : State) : Host.Outcome State Fault Refusal := feedOp (formatByte 0b00#2 0#6) s

/-- The meaning of FMT.A.LB: a byte `1x000000` given to the decoder (R143). -/
def execFmtALb (x : Bool) (s : State) : Host.Outcome State Fault Refusal := feedOp (formatByte (addressedField x) 0#6) s

/-- The meaning of FMT.N.LIF: a byte `00LLLLLL` given to the decoder (R143). -/
def execFmtNLif (l : BitVec 6) (s : State) : Host.Outcome State Fault Refusal := feedOp (formatByte 0b00#2 l) s

/-- The meaning of FMT.A.LIF: a byte `1xLLLLLL` given to the decoder (R143). -/
def execFmtALif (x : Bool) (l : BitVec 6) (s : State) : Host.Outcome State Fault Refusal :=
  feedOp (formatByte (addressedField x) l) s

end Sys2Proof.Machine
end

