-- ==== Sys2Proof/Machine/Synchronizer.lean ====
section
/-! DEFINITION. The byte-stream synchronizer: the reactions to receive events, the resynchronization, the purge, release and reinitialization
(spec/44_synchronizer.md). -/

namespace Sys2Proof.Machine

/-- In HOLD no event is taken: it stays with the transport, before everything presented later (R178, R33; log entry 10). -/
def leaveWithTransport (i : Instr) (s : State) : State := { s with inputs := .packet (encode i) :: s.inputs }

/-- What follows the decoder's result in RUN (R178, R181, R183). -/
def reactToFeed (r : FeedResult) (s : State) : State :=
  match r with
  | .needMore => s
  | .done => State.emit { s with mode := .hold } .frameDone
  | .error _ => resync s

/-- The meaning of SY.RXBYTE: the byte is fed to the decoder in RUN (R181), discarded in PURGE (R188), not taken in HOLD (R178). -/
def execSyRxbyte (b : Byte) (s : State) : Host.Outcome State Fault Refusal :=
  match s.mode with
  | .run =>
    match feedState b s with
    | none => .refused .frameComplete
    | some (r, t) => .next (reactToFeed r t)
  | .purge => .next (breakQuiet s)
  | .hold => .next (leaveWithTransport (.syRxbyte b) s)

/-- The meaning of SY.RXERR: a resynchronization in RUN (R182), `link_reset` in PURGE (R188), not taken in HOLD (R178). -/
def execSyRxerr (k : LinkError) (s : State) : Host.Outcome State Fault Refusal :=
  match s.mode with
  | .run => .next (resync s)
  | .purge => .next (linkReset (breakQuiet s))
  | .hold => .next (leaveWithTransport (.syRxerr k) s)

/-- The meaning of SY.QUIET: nothing in RUN (R184), the end of a purge whose quiet period has passed, with the Quiet events adjacent before it
(R176, R188), not taken in HOLD (R178). -/
def execSyQuiet (d : Nat) (s : State) : Host.Outcome State Fault Refusal :=
  match s.mode with
  | .run => .next s
  | .purge => if s.pT ≤ s.quiet + d then .next (endPurge s) else .next (addQuiet d s)
  | .hold => .next (leaveWithTransport (.syQuiet d) s)

/-- The meaning of SY.RESYNC (R185): in RUN on an error that is still owed it (R183, spec/42_frame_decoder.md R149); never in HOLD or PURGE
(spec/60_exceptions.md R250), nor in RUN without an error (R177; log entry 11). -/
def execSyResync (s : State) : Host.Outcome State Fault Refusal :=
  if s.mode ≠ .run then .refused .resyncOutsideRun
  else if s.owesResync = false then .refused .resyncWithoutError
  else .next (resync s)

/-- The meaning of SY.PURGE: in HOLD, a purge for `t` that returns to HOLD (R187). -/
def execSyPurge (t : Nat) (s : State) : Host.Outcome State Fault Refusal :=
  if s.mode ≠ .hold then .refused .purgeOutsideHold else .next (enterPurge t .hold s)

/-- The meaning of SY.RELEASE: in HOLD, the frame is reset and the block goes back to RUN (R190). -/
def execSyRelease (s : State) : Host.Outcome State Fault Refusal :=
  if s.mode ≠ .hold then .refused .releaseOutsideHold else .next { resetFrame s with mode := .run }

/-- The meaning of SY.REINIT: in HOLD, `link_reinit(div)` to the transport; no state of the block changes (R192). -/
def execSyReinit (div : Nat) (s : State) : Host.Outcome State Fault Refusal :=
  if s.mode ≠ .hold then .refused .reinitOutsideHold else .next (s.emit (.linkReinit div))

end Sys2Proof.Machine
end

