-- ==== Sys2Proof/Machine/Dispatch.lean ====
section
/-! DEFINITION. The one dispatch: an arm per constructor of `Instr`, each a direct call of its meaning. -/

namespace Sys2Proof.Machine

def exec (i : Instr) (s : State) : Host.Outcome State Fault Refusal :=
  match i with
  | .fmtBad x => Sys2Proof.Machine.execFmtBad x s
  | .fmtNLb => Sys2Proof.Machine.execFmtNLb s
  | .fmtALb x => Sys2Proof.Machine.execFmtALb x s
  | .fmtNLif l => Sys2Proof.Machine.execFmtNLif l s
  | .fmtALif x l => Sys2Proof.Machine.execFmtALif x l s
  | .txhShort l => Sys2Proof.Machine.execTxhShort l s
  | .txhLong l => Sys2Proof.Machine.execTxhLong l s
  | .sum8 bs => Sys2Proof.Machine.execSum8 bs s
  | .sumc8 bs => Sys2Proof.Machine.execSumc8 bs s
  | .vsum8 bs e => Sys2Proof.Machine.execVsum8 bs e s
  | .vsumc8 bs e => Sys2Proof.Machine.execVsumc8 bs e s
  | .crc16b bs => Sys2Proof.Machine.execCrc16b bs s
  | .crc16m a n => Sys2Proof.Machine.execCrc16m a n s
  | .crc16v a n e => Sys2Proof.Machine.execCrc16v a n e s
  | .fdReset => Sys2Proof.Machine.execFdReset s
  | .fdFeed b => Sys2Proof.Machine.execFdFeed b s
  | .feSend p n => Sys2Proof.Machine.execFeSend p n s
  | .syResync => Sys2Proof.Machine.execSyResync s
  | .syPurge t => Sys2Proof.Machine.execSyPurge t s
  | .syRelease => Sys2Proof.Machine.execSyRelease s
  | .syReinit d => Sys2Proof.Machine.execSyReinit d s
  | .syRxbyte b => Sys2Proof.Machine.execSyRxbyte b s
  | .syRxerr k => Sys2Proof.Machine.execSyRxerr k s
  | .syQuiet d => Sys2Proof.Machine.execSyQuiet d s

end Sys2Proof.Machine
end

