-- ==== Sys2Proof/Machine/Environment.lean ====
section
/-! DEFINITION. The acts of the environment that are no operation of the table: the host reads the frame and moves the session, the platform's memory
changes, the block is reset. -/

namespace Sys2Proof.Machine

/-- The value a host read gives (spec/20_memory.md R53); none where the byte lies at or above the received count and so has no defined value
(spec/93_implementation_defined.md U3; log entry 16). -/
def readField (r : HostRead) (f : Frame) : Option Nat :=
  match r with
  | .hlenExp => some f.hlenExp.toNat
  | .dlenExp => some f.dlenExp.toNat
  | .hrx => some f.hrx.toNat
  | .drx => some f.drx.toNat
  | .hbuf i => if i.val < f.hrx.toNat then some f.hbuf[i].toNat else none
  | .pbuf j => if j.val < f.drx.toNat then some f.pbuf[j].toNat else none

/-- A host read of the frame, in HOLD only (R53, spec/60_exceptions.md R244); an undefined byte is a free value. -/
def hostReadFrame (r : HostRead) (s : State) : Host.Outcome State Fault Refusal :=
  if s.mode ≠ .hold then .refused .hostReadOutsideHold
  else
    match readField r s.frame with
    | some v => .next (s.emit (.hostRead r v))
    | none => .next { s.emit (.hostRead r (Config.freeByte s.fresh).toNat) with fresh := s.fresh + 1 }

/-- The session state after an act of the host: StartCommunication connects and always locks (spec/45_host_context.md R202); a successful
prepare-to-reflash unlocks, and is ignored while Disconnected (R204, R233; log entry 17). -/
def moveSession (a : SessionAct) (s : State) : State :=
  match a with
  | .startCommunication => { s with link := .connected, flash := .locked }
  | .prepareToReflash => if s.link = .connected then { s with flash := .unlocked } else s

/-- A host act on the session, while the host runs, which is in HOLD (R200; log entry 17). -/
def hostMoveSession (a : SessionAct) (s : State) : Host.Outcome State Fault Refusal :=
  if s.mode ≠ .hold then .refused .hostActOutsideHold else .next (moveSession a s)

/-- Free bytes for a buffer of `n`, drawn from the counter `at0` on. -/
def freeBuffer (n at0 : Nat) : Vector Byte n := Vector.ofFn (fun i => Config.freeByte (at0 + i.val))

/-- Reset of the block in any mode (spec/70_reset_and_hazards.md R270, R271; log entry 15): every piece of its state takes the value of
spec/10_state.md R41, what R41 leaves unspecified is free, and what is not the block's stays: the parameters, the memory and the inputs not yet taken. -/
def resetBlock (s : State) : State :=
  { frame :=
      { hlenExp := 0#3, dlenExp := 0#8, hrx := 0#3, drx := 0#9
        hbuf := freeBuffer Config.hbufSize s.fresh
        pbuf := freeBuffer Config.pbufSize (s.fresh + Config.hbufSize) }
    mode := .run, pT := s.params.tIdle, pret := .run, rxen := true, link := .disconnected, flash := .locked
    acc8 := Config.freeByte (s.fresh + Config.hbufSize + Config.pbufSize)
    crc := Config.freeHalf (s.fresh + Config.hbufSize + Config.pbufSize + 1)
    params := s.params, mem := s.mem, inputs := s.inputs, trace := [], quiet := 0, owesResync := false
    fresh := s.fresh + Config.hbufSize + Config.pbufSize + 2 }

/-- The platform's memory holds another byte at an address (spec/20_memory.md R57: by the host's own access path, never by the block; log entry 22). -/
def changeMemory (a : Addr) (b : Byte) (s : State) : State := { s with mem := memWrite s.mem a.toNat b }

end Sys2Proof.Machine
end

