-- ==== Sys2Proof/Machine/Fetch.lean ====
section
/-! DEFINITION. Which input the block takes next (spec/44_synchronizer.md R178, R180; log entry 9). -/

namespace Sys2Proof.Machine

/-- The input is a receive event. -/
def Input.isEvent : Input → Bool
  | .packet (.event _ _) => true
  | _ => false

/-- The first input that is not a receive event, and the inputs without it, in order. -/
def takeHostInput : List Input → Option (Input × List Input)
  | [] => none
  | i :: rest =>
    if i.isEvent then
      match takeHostInput rest with
      | none => none
      | some (j, others) => some (j, i :: others)
    else some (i, rest)

/-- The next input and the state without it: in RUN and PURGE the oldest; in HOLD the oldest that is not a receive event. -/
def fetch (s : State) : Option (Input × State) :=
  match s.mode with
  | .hold =>
    match takeHostInput s.inputs with
    | none => none
    | some (i, rest) => some (i, { s with inputs := rest })
  | .run | .purge =>
    match s.inputs with
    | [] => none
    | i :: rest => some (i, { s with inputs := rest })

/-- The state with a packet where the next input is taken; a receive event, which HOLD does not take, puts a state in HOLD into RUN. -/
def presentPacket (p : Packet) (s : State) : State :=
  match p with
  | .event _ _ => { s with inputs := .packet p :: s.inputs, mode := if s.mode = .hold then .run else s.mode }
  | _ => { s with inputs := .packet p :: s.inputs }

end Sys2Proof.Machine
end

