-- ==== Sys2Proof/Machine/Step.lean ====
section
/-! DEFINITION. One step of the machine: the next input is taken and runs (spec/44_synchronizer.md R178; log entry 9). -/

namespace Sys2Proof.Machine

/-- Run one input on the state it was taken from. -/
def runInput (i : Input) (s : State) : Host.Outcome State Fault Refusal :=
  match i with
  | .packet p =>
    match decode p with
    | .ok i => exec i s
    | .error e => .refused (.undecodable e)
  | .hostRead r => hostReadFrame r s
  | .session a => hostMoveSession a s
  | .platformWrite a b => .next (changeMemory a b s)
  | .reset => .next (resetBlock s)

/-- One step: with nothing to take the block busy-waits (spec/60_exceptions.md R245, R256). -/
def step (s : State) : Host.Outcome State Fault Refusal :=
  match fetch s with
  | none => .next s
  | some (i, t) => runInput i t

/-- The state with a word of spec/opcode_table.json where the next input is taken, so that the very next step runs it (log entries 4 and 9). A word that
stands for no packet changes nothing. -/
def State.withFetchWord (s : State) (nbits w : Nat) : State :=
  match packetOfWord nbits w with
  | none => s
  | some p => presentPacket p s

end Sys2Proof.Machine
end

