-- ==== Sys2Proof/Machine/HostContext.lean ====
section
/-! DEFINITION. What spec/45_host_context.md fixes of the host's use of the block: the fields of a request, the response conventions, the gate of the
session state, the validations whose numbers the document gives, and the operation sequences the host runs.

The host is outside the block (spec/00_scope.md R6) and the step does not run these definitions; they are here so that a claim about the
host's use of the block needs no definitions of its own (log entry 19). -/

namespace Sys2Proof.Machine

/-- The data byte at a place of a request. The spec speaks of data bytes only; beyond them the value is free (log entry 25). -/
def dataByte (f : Frame) (i : Nat) : Byte := f.data.getD i (Config.absentByte i)

/-- A 16-bit field at data bytes `i`, `i + 1` of a request (R214). -/
def field16 (f : Frame) (i : Nat) : Half := bigEndian16 (dataByte f i) (dataByte f (i + 1))

/-- A 3-byte address, sign-extended from bit 23 (R215). -/
def address24 (a2 a1 a0 : Byte) : Addr := (a2 ++ a1 ++ a0 : BitVec 24).signExtend 32

/-- The service identifier, the first data byte; a frame without data has none (R207, R208). -/
def serviceId (f : Frame) : Option Byte := f.data.head?

/-- StartCommunication's request value and its answer (R202, R210). -/
def startCommunicationSid : Byte := 0x81#8
def startCommunicationAnswer : List Byte := [0xC1#8, 0x67#8, 0x8F#8]

/-- Read-by-address (R210, R225). -/
def readByAddressSid : Byte := 0x23#8

/-- The one response code with a number: length/format error (R210). -/
def lengthFormatError : Byte := 0x12#8

/-- The first byte of a positive response, SID + 0x40 (R209). The spec writes no reduction (spec/00_scope.md R11) and excludes no identifier; where the sum
does not fit a byte the model leaves the value free (DESIGN CHOICE, log entry 26). -/
def positiveResponseByte (sid : Byte) : Byte :=
  if sid.toNat + 0x40 ≤ 0xFF then sid + 0x40#8 else Config.responseByte sid

/-- A positive response begins with SID + 0x40 (R209). -/
def positiveResponse (sid : Byte) (payload : List Byte) : List Byte := positiveResponseByte sid :: payload

/-- A negative response is three bytes (R209). -/
def negativeResponse (sid code : Byte) : List Byte := [0x7F#8, sid, code]

/-- A request is serviced: StartCommunication always, every other while Connected (R202, R204); a frame without data never (R208). -/
def serviced (link : Link) (f : Frame) : Bool :=
  match serviceId f with
  | none => false
  | some sid => sid == startCommunicationSid || link == .connected

/-- A flash-programming sub-operation is serviced only while Unlocked (R205). -/
def flashServiced (flash : Flash) : Bool := flash == .unlocked

/-- Read-by-address accepts these sizes (R225). -/
def readSizeLegal (size : Nat) : Bool := decide (1 ≤ size ∧ size ≤ 251)

/-- Write-by-address accepts these requests: the length matches and the whole target lies in the RAM window (R226).
The spec calls RAM_MIN and RAM_MAX bounds; that RAM_MAX is the last address inside, not the first outside, is the model's choice (DESIGN CHOICE, log entry 27). -/
def writeLegal (frameLength size : Nat) (target : Addr) : Bool :=
  decide (1 ≤ size ∧ size ≤ 250 ∧ frameLength = size + 5 ∧ Config.ramMin.toNat ≤ target.toNat ∧
    target.toNat + size ≤ Config.ramMax.toNat + 1)

/-- The number of response frames of a bulk dump of `n` blocks (R227). -/
def bulkFrames (n : Nat) : Nat := (n * 32 + 31) / 32

/-- The key of a flash unprotect: the bitwise complement of the sub-operation code (R232). -/
def unprotectKey (subOperation : Byte) : Byte := ~~~subOperation

/-- The ROM CRC verify request has exactly 12 data bytes (R234). -/
def crcVerifyLegal (f : Frame) : Bool := f.dlenExp == 12#8

/-- The address at which chunk `idx + n` of the ROM CRC verify request begins, a natural number without reduction (R234, spec/00_scope.md R11). -/
def crcVerifyStart (p : Params) (f : Frame) (n : Nat) : Nat := ((field16 f 2).toNat + n) * p.crcChunkSize

/-- The n-th comparison of the ROM CRC verify request (R234): chunk `idx + n` against the n-th value. The spec does not say what happens
where the chunk begins above 0xFFFFFFFF, which CRC_CHUNK_SIZE leaves possible; the model's choice is that the comparison is refused there, as a range that
passes that address is (spec/20_memory.md R58; DESIGN CHOICE, log entry 25). -/
def crcVerifyOperation (p : Params) (f : Frame) (n : Nat) : Except Refusal Instr :=
  if Config.maxAddr < crcVerifyStart p f n then .error .rangeWraps
  else .ok (.crc16v (BitVec.ofNat 32 (crcVerifyStart p f n)) p.crcChunkSize (field16 f (4 + 2 * n)))

/-- The four comparisons of the ROM CRC verify request, in order (R234). -/
def crcVerifyOperations (p : Params) (f : Frame) : List (Except Refusal Instr) := (List.range 4).map (crcVerifyOperation p f)

/-- The set-speed sequence: acknowledge, reinitialize, purge for the settle period, release
(spec/44_synchronizer.md R193, spec/45_host_context.md R235). -/
def setSpeedOperations (p : Params) (ack : List Byte) (divisor : Nat) : List Instr :=
  [.feSend ack ack.length, .syReinit divisor, .syPurge p.tSettle, .syRelease]

end Sys2Proof.Machine
end

