-- ==== Sys2Proof/Machine/Pseudo.lean ====
section
/-! DEFINITION. The pseudo-operations DECODE, ENCODE, ROUNDTRIP and CKSFRAME (spec/30_encoding.md R86), abbreviations of real operations. ENCODE is
`encodeFrame`. -/

namespace Sys2Proof.Machine

/-- Feed bytes one after another, stopping at the first result that is not `NeedMore`: the result, the frame then, and how many bytes were taken. None
where a feed is refused. -/
def feedAll : List Byte → Frame → Option (FeedResult × Frame × Nat)
  | [], f => some (.needMore, f, 0)
  | b :: rest, f =>
    match feed b f with
    | none => none
    | some (.needMore, g) => (feedAll rest g).map (fun (r, h, n) => (r, h, n + 1))
    | some (.done, g) => some (.done, g, 1)
    | some (.error c, g) => some (.error c, g, 1)

/-- DECODE s: a frame reset, then the bytes (R86). -/
def decodeFrame (s : List Byte) (f : Frame) : Option (FeedResult × Frame × Nat) := feedAll s f.zeroCounts

/-- ROUNDTRIP p (R86). -/
def roundTrip (p : List Byte) (f : Frame) : Option (FeedResult × Frame × Nat) := decodeFrame (encodeFrame p p.length) f

/-- CKSFRAME s: a header-and-data byte string with its checksum (R86). -/
def withChecksum (s : List Byte) : List Byte := s ++ [sum8 s]

end Sys2Proof.Machine
end

