-- ==== Sys2Proof/Safety.lean ====
section
/-! DEFINITION. The terms the claims use: the invariants of the spec, the discipline of who may invoke what, and what it means that nothing else changed. -/

namespace Sys2Proof.Machine

/-- The invariant of the in-progress frame (spec/10_state.md R28), with the legal values of `F.hlen_exp` (R20). -/
structure Frame.Inv (f : Frame) : Prop where
  header_legal : f.hlenExp.toNat ≤ 4
  header_bounded : f.hrx.toNat ≤ f.hlenExp.toNat
  data_bounded : f.drx.toNat ≤ f.dlenExp.toNat + 1
  data_after_header : 0 < f.drx.toNat → f.hrx = f.hlenExp ∧ 0 < f.hlenExp.toNat
  first_is_empty : f.hrx = 0#3 → f.hlenExp = 0#3 ∧ f.dlenExp = 0#8 ∧ f.drx = 0#9

/-- The four counts of the frame are zero (spec/42_frame_decoder.md R141). -/
def Frame.Zero (f : Frame) : Prop := f.hlenExp = 0#3 ∧ f.dlenExp = 0#8 ∧ f.hrx = 0#3 ∧ f.drx = 0#9

/-- The frame is complete and its checksum byte is the sum of the bytes before it (R150, after `Done`). -/
def Frame.Valid (f : Frame) : Prop :=
  f.complete = true ∧ f.pbuf.toList.getD f.dlenExp.toNat 0#8 = sum8 (f.header ++ f.data)

/-- What each mode promises (spec/44_synchronizer.md R194, spec/60_exceptions.md R250, spec/70_reset_and_hazards.md R282): no complete frame while events are fed to the
decoder; a checksum-valid frame while the host holds it or has asked for a purge; a reset frame and a session forced down while a
resynchronization purges. -/
def ModePromise (s : State) : Prop :=
  match s.mode with
  | .run => s.frame.complete = false
  | .hold => s.frame.Valid
  | .purge =>
    match s.pret with
    | .run => s.frame.Zero ∧ s.link = .disconnected ∧ s.flash = .locked
    | .hold => s.frame.Valid

/-- The invariant of the synchronizer: the frame's, the receiver enabled between operations (spec/10_state.md R39), what the mode promises, and that silence is
counted in a purge only and is shorter than its quiet period (spec/44_synchronizer.md R176, R188). -/
structure State.Inv (s : State) : Prop where
  frame_inv : s.frame.Inv
  receiver_on : s.rxen = true
  promise : ModePromise s
  quiet_in_purge : s.mode ≠ .purge → s.quiet = 0
  quiet_short : s.quiet = 0 ∨ s.quiet < s.pT

/-- Only the synchronizer invokes the operation (spec/30_encoding.md R85): those that drive the decoder, and SY.RESYNC. A model may expose the
former on their own, as a codec test does. -/
def Instr.synchronizersOwn : Instr → Bool
  | .fdReset => true
  | .fdFeed _ => true
  | .fmtBad _ => true
  | .fmtNLb => true
  | .fmtALb _ => true
  | .fmtNLif _ => true
  | .fmtALif _ _ => true
  | .txhShort _ => false
  | .txhLong _ => false
  | .sum8 _ => false
  | .sumc8 _ => false
  | .vsum8 _ _ => false
  | .vsumc8 _ _ => false
  | .crc16b _ => false
  | .crc16m _ _ => false
  | .crc16v _ _ _ => false
  | .feSend _ _ => false
  | .syResync => true
  | .syPurge _ => false
  | .syRelease => false
  | .syReinit _ => false
  | .syRxbyte _ => false
  | .syRxerr _ => false
  | .syQuiet _ => false

/-- The next input keeps to the discipline of R85: nobody but the synchronizer drives the decoder or invokes
SY.RESYNC. -/
def Disciplined (s : State) : Prop :=
  ∀ p t i, fetch s = some (.packet p, t) → decode p = .ok i → Instr.synchronizersOwn i = false

/-- The next input is a packet of this operation. -/
def Takes (s : State) (i : Instr) : Prop := ∃ p u, fetch s = some (.packet p, u) ∧ decode p = .ok i

/-- The operation forces a resynchronization in this state: in RUN, a byte the decoder answers with an error (spec/44_synchronizer.md R183), a link
error (R182), or SY.RESYNC itself on a decoder error that is still owed it (spec/42_frame_decoder.md R149; log entry 11). -/
def ForcesResync (i : Instr) (s : State) : Prop :=
  s.mode = .run ∧ ((i = .syResync ∧ s.owesResync = true) ∨ (∃ k, i = .syRxerr k) ∨ ∃ b c g, i = .syRxbyte b ∧ feed b s.frame = some (.error c, g))

/-- The rows of the table of spec/44_synchronizer.md R177 that change the mode, but for reset. The row of a decoder error
also stands for the two operations apart: FD.FEED with an Error, then SY.RESYNC (log entry 11). -/
def ModeMove (i : Instr) (s t : State) : Prop :=
  (s.mode = .run ∧ t.mode = .hold ∧ ∃ b g, i = .syRxbyte b ∧ feed b s.frame = some (.done, g)) ∨
  (t.mode = .purge ∧ t.pret = .run ∧ ForcesResync i s) ∨
  (s.mode = .hold ∧ t.mode = .run ∧ i = .syRelease) ∨
  (s.mode = .hold ∧ t.mode = .purge ∧ t.pret = .hold ∧ ∃ d, i = .syPurge d ∧ t.pT = d) ∨
  (s.mode = .purge ∧ t.mode = s.pret.toMode ∧ ∃ d, i = .syQuiet d ∧ s.pT ≤ s.quiet + d)

/-- Every byte of the external memory reads as before. -/
def SameMemory (s t : State) : Prop := ∀ a : Nat, memRead t.mem a = memRead s.mem a

/-- `t` is `s` after the ports put out `os`: nothing else differs. -/
def PutsOnly (os : List Output) (s t : State) : Prop := t = { s with trace := s.trace ++ os } ∧ SameMemory s t

/-- `t` is `s` after the ports put out `os` and a checksum was computed: beside the record only `ACC8`, whose value does not survive
(spec/10_state.md R38), and the counter of free values differ. -/
def PutsAndSums (os : List Output) (s t : State) : Prop :=
  t = { s with trace := s.trace ++ os, acc8 := t.acc8, fresh := t.fresh } ∧ SameMemory s t

/-- `t` is `s` after the ports put out `os` and a CRC was computed: beside the record only `CRC`, whose value does not survive (R38), and
the counter of free values differ. -/
def PutsAndCrcs (os : List Output) (s t : State) : Prop :=
  t = { s with trace := s.trace ++ os, crc := t.crc, fresh := t.fresh } ∧ SameMemory s t

end Sys2Proof.Machine
end

