-- ==== Sys2Proof/Certificates/Slice0/Obligations.lean ====
section
/-! DEFINITION. The statements for the provers. Each docstring names the rule of spec/ it formalises, or says that a clause is the model's own choice and
names the log entry. -/

open Sys2Proof Sys2Proof.Machine

/-! ## Encoding -/

/-- spec/30_encoding.md R78, R80, R83, R84: no part of a well-formed operation's encoding is dropped. That operands travel beside the selector is the model's
choice (log entry 2). -/
def Obligations.WellFormedOperationDecodesFromItsPacket : Prop :=
  ∀ i : Instr, i.wellFormed = true → decode (encode i) = .ok i

/-- What a packet decodes to is well-formed, and the packet is its encoding; packets are the model's choice (log entry 2). -/
def Obligations.DecodedPacketIsItsOperationsEncoding : Prop :=
  ∀ (p : Packet) (i : Instr), decode p = .ok i → encode i = p ∧ i.wellFormed = true

/-- Words written out from the tables of R78, R80, R83 and R84. The operands beside a selector are the model's choice (log entry 2). -/
def Obligations.WordsOfTheSpecDecode : Prop :=
  decode (.wireRx 0b00000000#8) = .ok .fmtNLb ∧
  decode (.wireRx 0b00000011#8) = .ok (.fmtNLif 3#6) ∧
  decode (.wireRx 0b01000001#8) = .ok (.fmtBad 1#6) ∧
  decode (.wireRx 0b11000000#8) = .ok (.fmtALb true) ∧
  decode (.wireRx 0b10000001#8) = .ok (.fmtALif false 1#6) ∧
  decode (.wireTx [0b00000011#8]) = .ok (.txhShort 3#6) ∧
  decode (.wireTx [0x00#8, 0x40#8]) = .ok (.txhLong 0x40#8) ∧
  decode (.cmd 0x01#8 [.bytes [0xFF#8]]) = .ok (.sum8 [0xFF#8]) ∧
  decode (.cmd 0x0A#8 [.addr 0x100#32, .nat 256, .half 0xEF89#16]) = .ok (.crc16v 0x100#32 256 0xEF89#16) ∧
  decode (.cmd 0x22#8 []) = .ok .syRelease ∧
  decode (.event 2#2 [.nat 10]) = .ok (.syQuiet 10) ∧
  decode (.event 3#2 []) = .error .undefinedTag

/-- spec/30_encoding.md R78: the table of first bytes, one clause per row, with the header length of each class. -/
def Obligations.FirstByteTable : Prop :=
  ∀ b : Byte,
    (b = 0x00#8 → classify b = .fmtNLb ∧ headerLength b = 2) ∧
    (0x01 ≤ b.toNat ∧ b.toNat ≤ 0x3F → classify b = .fmtNLif (lengthInFormat b) ∧ headerLength b = 1 ∧
      (formatDataLength b).toNat = b.toNat) ∧
    (0x40 ≤ b.toNat ∧ b.toNat ≤ 0x7F → classify b = .fmtBad (lengthInFormat b) ∧ badFormat b = true) ∧
    (b = 0x80#8 ∨ b = 0xC0#8 → classify b = .fmtALb (b.getLsbD 6) ∧ headerLength b = 4) ∧
    (0x81 ≤ b.toNat ∧ b.toNat ≤ 0xBF → classify b = .fmtALif false (lengthInFormat b) ∧ headerLength b = 3 ∧
      (formatDataLength b).toNat = b.toNat - 0x80) ∧
    (0xC1 ≤ b.toNat → classify b = .fmtALif true (lengthInFormat b) ∧ headerLength b = 3 ∧
      (formatDataLength b).toNat = b.toNat - 0xC0) ∧
    (¬ (0x40 ≤ b.toNat ∧ b.toNat ≤ 0x7F) → badFormat b = false)

/-! ## The step -/

/-- A step runs the decoded operation on the state without its packet: in RUN and PURGE the oldest input; in HOLD the oldest that is not a receive event,
the events before it staying in their order. An input that is no packet is run the same way (spec/44_synchronizer.md R178, R180; the queue is the model's
choice, log entry 9). -/
def Obligations.StepRunsTheDecodedOperation : Prop :=
  (∀ (s : State) (p : Packet) (i : Instr) (rest : List Input),
    s.mode ≠ .hold → s.inputs = .packet p :: rest → decode p = .ok i →
    step s = exec i { s with inputs := rest }) ∧
  (∀ (s : State) (p : Packet) (i : Instr) (events rest : List Input),
    s.mode = .hold → (∀ e ∈ events, e.isEvent = true) → Input.isEvent (.packet p) = false →
    s.inputs = events ++ .packet p :: rest → decode p = .ok i →
    step s = exec i { s with inputs := events ++ rest }) ∧
  (∀ (s : State) (input : Input) (rest : List Input),
    s.mode ≠ .hold → s.inputs = input :: rest → step s = runInput input { s with inputs := rest }) ∧
  (∀ (s : State) (input : Input) (events rest : List Input),
    s.mode = .hold → (∀ e ∈ events, e.isEvent = true) → input.isEvent = false →
    s.inputs = events ++ input :: rest → step s = runInput input { s with inputs := events ++ rest })

/-- A packet that stands for no operation is refused in every mode when it is taken (spec/30_encoding.md R83, "and no others"; packets and the name of the refusal are the model's
choice, log entries 2 and 18). -/
def Obligations.UndecodablePacketIsRefused : Prop :=
  (∀ (s : State) (p : Packet) (e : DecodeError) (rest : List Input),
    s.mode ≠ .hold → s.inputs = .packet p :: rest → decode p = .error e → step s = .refused (.undecodable e)) ∧
  (∀ (s : State) (p : Packet) (e : DecodeError) (events rest : List Input),
    s.mode = .hold → (∀ e ∈ events, e.isEvent = true) → Input.isEvent (.packet p) = false →
    s.inputs = events ++ .packet p :: rest → decode p = .error e → step s = .refused (.undecodable e))

/-- With nothing to take the block busy-waits, and in HOLD receive events stay with the transport, also when a reaction to one is
invoked there (spec/60_exceptions.md R256, spec/44_synchronizer.md R178; the queue and the event put back are the model's choice, log entries 9 and 10). -/
def Obligations.NothingTakenNothingChanges : Prop :=
  (∀ s : State, s.inputs = [] → step s = .next s) ∧
  (∀ s : State, s.mode = .hold → (∀ e ∈ s.inputs, e.isEvent = true) → step s = .next s) ∧
  (∀ (i : Instr) (s : State), s.mode = .hold → (∃ b, i = .syRxbyte b) ∨ (∃ k, i = .syRxerr k) ∨ (∃ d, i = .syQuiet d) →
    exec i s = .next { s with inputs := .packet (encode i) :: s.inputs })

/-! ## The checksum unit -/

/-- spec/40_checksums.md R100: the result is the sum of all bytes modulo 256, and nothing but the transient accumulator is written. -/
def Obligations.Sum8GivesTheSumModulo256 : Prop :=
  ∀ (bs : List Byte) (s : State), ∃ t, exec (.sum8 bs) s = .next t ∧
    PutsAndSums [.result (.byte (BitVec.ofNat 8 (bs.map BitVec.toNat).sum))] s t

/-- spec/40_checksums.md R102, R103 a: the result is zero when every byte is zero, else the number from 1 to 255 congruent to the true sum modulo 255. R103 is
the spec's derivation from its decision D6. -/
def Obligations.Sumc8GivesTheSumModulo255 : Prop :=
  ∀ (bs : List Byte) (s : State), ∃ (r : Byte) (t : State), exec (.sumc8 bs) s = .next t ∧
    PutsAndSums [.result (.byte r)] s t ∧
    ((∀ b ∈ bs, b = 0#8) → r = 0#8) ∧
    ((∃ b ∈ bs, b ≠ 0#8) → r ≠ 0#8 ∧ r.toNat % 255 = (bs.map BitVec.toNat).sum % 255)

/-- spec/40_checksums.md R104: the validator compares the sum with the expected byte; a mismatch is the result false. -/
def Obligations.Vsum8ComparesTheSum : Prop :=
  ∀ (bs : List Byte) (e : Byte) (s : State), ∃ t, exec (.vsum8 bs e) s = .next t ∧
    PutsAndSums [.result (.bool (decide ((bs.map BitVec.toNat).sum % 256 = e.toNat)))] s t

/-- spec/40_checksums.md R105 with R103 a: the validator of the carry-propagating sum, by the true sum. -/
def Obligations.Vsumc8ComparesTheSum : Prop :=
  ∀ (bs : List Byte) (e : Byte) (s : State), ∃ t, exec (.vsumc8 bs e) s = .next t ∧
    PutsAndSums [.result (.bool (if (bs.map BitVec.toNat).sum = 0 then e == 0#8
      else e != 0#8 && e.toNat % 255 == (bs.map BitVec.toNat).sum % 255))] s t

/-- spec/40_checksums.md R101 c, R103 c: neither sum depends on the order of the bytes (the spec's derivation). -/
def Obligations.SumsIgnoreTheOrder : Prop :=
  ∀ s t : List Byte, s.Perm t → sum8 s = sum8 t ∧ sumc8 s = sumc8 t

/-- spec/40_checksums.md R101 e, R103 e: one changed byte always changes SUM8, and changes SUMC8 except between 0x00 and 0xFF beside another nonzero
byte (the spec's derivation). -/
def Obligations.OneChangedByteInTheSums : Prop :=
  ∀ (before after : List Byte) (x y : Byte), x ≠ y →
    sum8 (before ++ x :: after) ≠ sum8 (before ++ y :: after) ∧
    (sumc8 (before ++ x :: after) = sumc8 (before ++ y :: after) ↔
      (x = 0x00#8 ∧ y = 0xFF#8 ∨ x = 0xFF#8 ∧ y = 0x00#8) ∧ ∃ b ∈ before ++ after, b ≠ 0#8)

/-- spec/40_checksums.md R103 d, word for word: the two sums agree exactly when the true sum is below 256. The spec marks it as derived; it fails: 256 bytes 0xFF and one
byte 0x01 have the true sum 65281, and both sums are 0x01 (log entry 21). -/
def Obligations.SumsAgreeExactlyBelow256 : Prop :=
  ∀ bs : List Byte, sumc8 bs = sum8 bs ↔ (bs.map BitVec.toNat).sum < 256

/-- The part of spec/40_checksums.md R103 d that holds: below a true sum of 256 the two sums agree, and from 256 to 65280 they do not. -/
def Obligations.SumsAgreeBelow256 : Prop :=
  ∀ bs : List Byte,
    ((bs.map BitVec.toNat).sum < 256 → sumc8 bs = sum8 bs) ∧
    (256 ≤ (bs.map BitVec.toNat).sum ∧ (bs.map BitVec.toNat).sum ≤ 65280 → sumc8 bs ≠ sum8 bs)

/-! ## The CRC unit -/

/-- spec/41_crc16.md R122 with R123: the result is that of the bit-serial shift register over the bits of the bytes, then the output stage. The form is the
spec's derivation. -/
def Obligations.Crc16GivesTheShiftRegistersValue : Prop :=
  ∀ (bs : List Byte) (s : State), ∃ t, exec (.crc16b bs) s = .next t ∧
    PutsAndCrcs [.result (.half (crcOut s.params
      ((bs.flatMap (fun b => msbFirst (crcInByte s.params b))).foldl crcBit s.params.crcInit)))] s t

/-- spec/41_crc16.md R127: the table form of the byte step (the spec's derivation). -/
def Obligations.CrcTableFormIsTheByteStep : Prop :=
  ∀ (p : Params) (c : Half) (b : Byte), crcTableByte p c b = crcByte p c b

/-- spec/41_crc16.md R124, R125, R55, R58: the bytes of the range are read once each, ascending, and the CRC of them is the result; a range that passes 0xFFFFFFFF is
refused; an empty range reads nothing whatever the address. -/
def Obligations.Crc16OverMemory : Prop :=
  ∀ (a : Addr) (n : Nat) (s : State),
    (n = 0 ∨ a.toNat + n - 1 ≤ 0xFFFFFFFF → ∃ t, exec (.crc16m a n) s = .next t ∧
      PutsAndCrcs ((List.range n).map (fun i => Output.memRead (BitVec.ofNat 32 (a.toNat + i))) ++
        [.result (.half (crc16 s.params ((List.range n).map (fun i => memRead s.mem (a.toNat + i)))))]) s t) ∧
    (n ≠ 0 ∧ 0xFFFFFFFF < a.toNat + n - 1 → exec (.crc16m a n) s = .refused .rangeWraps)

/-- spec/41_crc16.md R126: the comparator of a range, under the conditions of the range. -/
def Obligations.Crc16Comparator : Prop :=
  ∀ (a : Addr) (n : Nat) (e : Half) (s : State),
    (n = 0 ∨ a.toNat + n - 1 ≤ 0xFFFFFFFF → ∃ t, exec (.crc16v a n e) s = .next t ∧
      PutsAndCrcs ((List.range n).map (fun i => Output.memRead (BitVec.ofNat 32 (a.toNat + i))) ++
        [.result (.bool (decide
          (crc16 s.params ((List.range n).map (fun i => memRead s.mem (a.toNat + i))) = e)))]) s t) ∧
    (n ≠ 0 ∧ 0xFFFFFFFF < a.toNat + n - 1 → exec (.crc16v a n e) s = .refused .rangeWraps)

/-- spec/41_crc16.md R128 a: a sequence followed by its CRC, the high byte first, has the CRC zero, without reflection and final xor, for every initial
value (the spec's derivation). -/
def Obligations.CrcResidueIsZero : Prop :=
  ∀ (p : Params) (bs : List Byte), p.crcRefin = false → p.crcRefout = false → p.crcXorout = 0#16 →
    crc16 p (bs ++ [(crc16 p bs).extractLsb' 8 8, (crc16 p bs).extractLsb' 0 8]) = 0#16

/-- spec/41_crc16.md R128 e: linearity over sequences of equal length, without reflection and final xor (the spec's derivation). -/
def Obligations.CrcIsLinear : Prop :=
  ∀ (p : Params) (s t : List Byte), p.crcRefin = false → p.crcRefout = false → p.crcXorout = 0#16 → s.length = t.length →
    crc16 p (List.zipWith (· ^^^ ·) s t) ^^^ crc16 p (List.replicate s.length 0#8) = crc16 p s ^^^ crc16 p t

/-- Two neighbouring bytes changed in any way change the CRC, for every choice of the parameters. spec/41_crc16.md R128 d, the spec's general knowledge,
says so of 16 consecutive bits without reflection and final xor; the wider form is this statement's own and follows from R121 and R122 (log entry 20). -/
def Obligations.CrcDetectsTwoChangedBytes : Prop :=
  ∀ (p : Params) (before after : List Byte) (x y x' y' : Byte), ¬ (x = x' ∧ y = y') →
    crc16 p (before ++ x :: y :: after) ≠ crc16 p (before ++ x' :: y' :: after)

/-! ## The decoder -/

/-- spec/42_frame_decoder.md R141: the four counts become zero and the buffers are not written. What is zeroed is the spec's decision D7. -/
def Obligations.FrameResetZeroesTheCounts : Prop :=
  ∀ s : State, ∃ t, exec .fdReset s = .next t ∧ SameMemory s t ∧
    t = { s with frame := { s.frame with hlenExp := 0#3, dlenExp := 0#8, hrx := 0#3, drx := 0#9 } }

/-- spec/42_frame_decoder.md R148: a feed is refused exactly when the frame is complete (the spec's decision D8). -/
def Obligations.FeedRefusedExactlyWhenComplete : Prop :=
  ∀ (b : Byte) (s : State), exec (.fdFeed b) s = .refused .frameComplete ↔ s.frame.complete = true

/-- spec/42_frame_decoder.md R143, R144, spec/30_encoding.md R75, R79: an accepted first byte sets the expected lengths, is stored, and needs more. -/
def Obligations.AcceptedFirstByteStartsTheFrame : Prop :=
  ∀ (b : Byte) (s : State), s.frame.hrx = 0#3 → addressing b ≠ 0b01#2 →
    ∃ t, exec (.fdFeed b) s = .next t ∧ SameMemory s t ∧
      t = { s with
        trace := s.trace ++ [.result (.feed .needMore)], owesResync := false
        frame := { s.frame with
          hlenExp := BitVec.ofNat 3 (1 + (if b.getLsbD 7 then 2 else 0) + (if lengthInFormat b = 0#6 then 1 else 0))
          dlenExp := if lengthInFormat b = 0#6 then s.frame.dlenExp else (lengthInFormat b).zeroExtend 8
          hrx := 1#3
          hbuf := s.frame.hbuf.set 0 b } }

/-- spec/30_encoding.md R78, spec/42_frame_decoder.md R143: what each class of first byte does to a frame whose first byte it is: the rejected class changes
nothing, the others set the header length of their row and, where the row carries it, the data length. That a class of first byte is run as an operation of
its own is the model's choice (log entry 11). -/
def Obligations.FirstByteClassesAtTheFirstByte : Prop :=
  (∀ (x : BitVec 6) (s : State), s.frame.hrx = 0#3 → ∃ t, exec (.fmtBad x) s = .next t ∧ SameMemory s t ∧
    t = { s with trace := s.trace ++ [.result (.feed (.error .eFmt))], owesResync := s.mode == .run }) ∧
  (∀ s : State, s.frame.hrx = 0#3 → ∃ t, exec .fmtNLb s = .next t ∧ SameMemory s t ∧
    t = { s with trace := s.trace ++ [.result (.feed .needMore)], owesResync := false, frame := { s.frame with
      hlenExp := 2#3, hrx := 1#3, hbuf := s.frame.hbuf.set 0 0x00#8 } }) ∧
  (∀ (x : Bool) (s : State), s.frame.hrx = 0#3 → ∃ t, exec (.fmtALb x) s = .next t ∧ SameMemory s t ∧
    t = { s with trace := s.trace ++ [.result (.feed .needMore)], owesResync := false, frame := { s.frame with
      hlenExp := 4#3, hrx := 1#3, hbuf := s.frame.hbuf.set 0 (if x then 0xC0#8 else 0x80#8) } }) ∧
  (∀ (l : BitVec 6) (s : State), l ≠ 0#6 → s.frame.hrx = 0#3 → ∃ t, exec (.fmtNLif l) s = .next t ∧ SameMemory s t ∧
    t = { s with trace := s.trace ++ [.result (.feed .needMore)], owesResync := false, frame := { s.frame with
      hlenExp := 1#3, dlenExp := l.zeroExtend 8, hrx := 1#3, hbuf := s.frame.hbuf.set 0 (l.zeroExtend 8) } }) ∧
  (∀ (x : Bool) (l : BitVec 6) (s : State), l ≠ 0#6 → s.frame.hrx = 0#3 → ∃ t, exec (.fmtALif x l) s = .next t ∧ SameMemory s t ∧
    t = { s with trace := s.trace ++ [.result (.feed .needMore)], owesResync := false, frame := { s.frame with
      hlenExp := 3#3, dlenExp := l.zeroExtend 8, hrx := 1#3
      hbuf := s.frame.hbuf.set 0 ((if x then 0xC0#8 else 0x80#8) + l.zeroExtend 8) } })

/-- spec/42_frame_decoder.md R152: in every state a byte of any class does what the decoder does with that byte, whatever its class (in the middle of a frame it
is taken as whatever the counters say it is). That a class is run as an operation is the model's choice (log entry 11). -/
def Obligations.ClassifiedByteIsFed : Prop :=
  ∀ (b : Byte) (s : State), exec (classify b) s = exec (.fdFeed b) s

/-- spec/42_frame_decoder.md R144, R145: a later header byte is stored at `hbuf[hrx]`; as the last one it is the data length when the format byte's low six
bits are zero. -/
def Obligations.HeaderByteAccumulates : Prop :=
  ∀ (b : Byte) (s : State), s.frame.Inv → 0 < s.frame.hrx.toNat → s.frame.hrx.toNat < s.frame.hlenExp.toNat →
    ∃ t, exec (.fdFeed b) s = .next t ∧ SameMemory s t ∧
      t = { s with
        trace := s.trace ++ [.result (.feed .needMore)], owesResync := false
        frame := { s.frame with
          dlenExp := if s.frame.hrx.toNat + 1 = s.frame.hlenExp.toNat ∧ lengthInFormat s.frame.hbuf[0] = 0#6 then b
            else s.frame.dlenExp
          hrx := s.frame.hrx + 1#3
          hbuf := s.frame.hbuf.setIfInBounds s.frame.hrx.toNat b } }

/-- spec/42_frame_decoder.md R146: a data byte is stored at `pbuf[drx]` and needs more. -/
def Obligations.DataByteAccumulates : Prop :=
  ∀ (b : Byte) (s : State), s.frame.Inv → 0 < s.frame.hrx.toNat → s.frame.hrx = s.frame.hlenExp →
    s.frame.drx.toNat < s.frame.dlenExp.toNat →
    ∃ t, exec (.fdFeed b) s = .next t ∧ SameMemory s t ∧
      t = { s with
        trace := s.trace ++ [.result (.feed .needMore)], owesResync := false
        frame := { s.frame with
          drx := s.frame.drx + 1#9
          pbuf := s.frame.pbuf.setIfInBounds s.frame.drx.toNat b } }

/-- spec/42_frame_decoder.md R147, spec/30_encoding.md R76: the last byte is stored at `pbuf[dlen_exp]`, and the result is Done exactly when it is the sum modulo 256 of the
header and data bytes, else Error(E_CKS); either way the frame is then complete. That it is compared in the same feed is the spec's decision D29 (log entry 24). -/
def Obligations.LastByteIsCheckedAgainstTheSum : Prop :=
  ∀ (b : Byte) (s : State), s.frame.Inv → 0 < s.frame.hrx.toNat → s.frame.hrx = s.frame.hlenExp →
    s.frame.drx.toNat = s.frame.dlenExp.toNat →
    ∃ t, exec (.fdFeed b) s = .next t ∧ SameMemory s t ∧ t.frame.complete = true ∧
      t = { s with
        trace := s.trace ++ [.result (.feed (
          if ((s.frame.header ++ s.frame.data).map BitVec.toNat).sum % 256 = b.toNat then .done else .error .eCks))]
        owesResync := decide (((s.frame.header ++ s.frame.data).map BitVec.toNat).sum % 256 ≠ b.toNat) && s.mode == .run
        acc8 := t.acc8
        fresh := t.fresh
        frame := { s.frame with
          drx := s.frame.drx + 1#9
          pbuf := s.frame.pbuf.setIfInBounds s.frame.drx.toNat b } }

/-- spec/10_state.md R28: every step keeps the invariant of the in-progress frame, whoever drives the decoder. -/
def Obligations.StepKeepsTheFrameInvariant : Prop :=
  ∀ s t : State, s.frame.Inv → step s = .next t → t.frame.Inv

/-- spec/42_frame_decoder.md R151, R77, R25, R26: a decoded frame that ends in Done or Error(E_CKS) took exactly the header, the data and the checksum byte, 3 to 260
bytes, and holds them in its buffers as they came (the spec's derivation). -/
def Obligations.DecodedFrameHoldsTheBytesItTook : Prop :=
  ∀ (w : List Byte) (f g : Frame) (r : FeedResult) (n : Nat), decodeFrame w f = some (r, g, n) →
    r = .done ∨ r = .error .eCks →
    n = g.hlenExp.toNat + g.dlenExp.toNat + 1 ∧ 3 ≤ n ∧ n ≤ 260 ∧
    w.take n = g.header ++ g.data ++ [g.pbuf.toList.getD g.dlenExp.toNat 0#8] ∧
    (r = .done ↔ g.pbuf.toList.getD g.dlenExp.toNat 0#8 = sum8 (g.header ++ g.data))

/-- spec/30_encoding.md R86, spec/42_frame_decoder.md R148: decoding from a reset frame is never refused. -/
def Obligations.DecodeIsNeverRefused : Prop :=
  ∀ (w : List Byte) (f : Frame), ∃ r g n, decodeFrame w f = some (r, g, n) ∧ n ≤ w.length ∧ (r = .needMore → n = w.length)

/-- spec/43_frame_encoder.md R171: what the encoder puts on the wire for 1 to 255 bytes decodes to those bytes, with Done on the last byte (the spec's reading of the
document's property). -/
def Obligations.EncodedPayloadDecodes : Prop :=
  ∀ (p : List Byte) (f : Frame), 1 ≤ p.length → p.length ≤ 255 →
    ∃ g, roundTrip p f = some (.done, g, (encodeFrame p p.length).length) ∧
      g.dlenExp.toNat = p.length ∧ g.data = p ∧ g.hlenExp.toNat = (if p.length ≤ 63 then 1 else 2)

/-- spec/40_checksums.md R107: every corruption of a valid frame's checksum byte, of one byte that is neither the format byte nor the length byte, and
of the format byte where the lengths it announces stay, decodes to Error(E_CKS), never Done. -/
def Obligations.CorruptedFrameIsRejected : Prop :=
  ∀ (fmt : Byte) (body : List Byte) (c : Byte) (f g : Frame) (n : Nat),
    decodeFrame (fmt :: body ++ [c]) f = some (.done, g, n) → n = (fmt :: body ++ [c]).length →
    (∀ c' : Byte, c' ≠ c → ∃ g', decodeFrame (fmt :: body ++ [c']) f = some (.error .eCks, g', n)) ∧
    (∀ (before after : List Byte) (x y : Byte), body = before ++ x :: after → y ≠ x →
      ¬ (lengthInFormat fmt = 0#6 ∧ before.length + 2 = headerLength fmt) →
      ∃ g', decodeFrame (fmt :: (before ++ y :: after) ++ [c]) f = some (.error .eCks, g', n)) ∧
    (∀ fmt' : Byte, fmt' ≠ fmt → badFormat fmt' = false → headerLength fmt' = headerLength fmt →
      lengthInFormat fmt' = lengthInFormat fmt → ∃ g', decodeFrame (fmt' :: body ++ [c]) f = some (.error .eCks, g', n))

/-! ## The encoder -/

/-- spec/43_frame_encoder.md R160, R161, R165, R166: in HOLD, with at least the clamped length of payload, a send puts the header, the clamped payload and the checksum on
the wire between switching the receiver off and on, and waits for the last bit. -/
def Obligations.SendPutsTheFrameOnTheWire : Prop :=
  ∀ (p : List Byte) (length : Nat) (s : State), s.mode = .hold → min length 255 ≤ p.length →
    ∃ (t : State) (frame : List Byte), exec (.feSend p length) s = .next t ∧ SameMemory s t ∧
      frame = (if min length 255 ≤ 63 then [BitVec.ofNat 8 (min length 255)] else [0x00#8, BitVec.ofNat 8 (min length 255)])
        ++ p.take (min length 255)
        ++ [BitVec.ofNat 8 (min length 255 + ((p.take (min length 255)).map BitVec.toNat).sum)] ∧
      frame.length = min length 255 + (if min length 255 ≤ 63 then 2 else 3) ∧
      t.txLog = s.txLog ++ frame ∧
      t = { s with
        trace := s.trace ++ (.rxen false :: frame.map .txByte ++ [.awaitLastBit, .rxen true])
        rxen := true, acc8 := t.acc8, fresh := t.fresh }

/-- spec/43_frame_encoder.md R168: a send outside HOLD, and a send whose payload is shorter than the clamped length, are refused (the spec's decisions D11 and D30). -/
def Obligations.SendRefusals : Prop :=
  (∀ (p : List Byte) (length : Nat) (s : State), s.mode ≠ .hold → exec (.feSend p length) s = .refused .sendOutsideHold) ∧
  (∀ (p : List Byte) (length : Nat) (s : State), s.mode = .hold → p.length < min length 255 →
    exec (.feSend p length) s = .refused .payloadShort)

/-- spec/43_frame_encoder.md R172: the first bytes of an encoded frame classify its length exactly. For a payload shorter than the clamped length, where a send is refused, that ENCODE gives
anything is the model's choice (log entry 28). -/
def Obligations.EncodedHeaderClassifiesTheLength : Prop :=
  ∀ (p : List Byte) (v : Nat),
    (v ≤ 63 → (encodeFrame p v)[0]? = some (BitVec.ofNat 8 v)) ∧
    (64 ≤ v → (encodeFrame p v)[0]? = some 0x00#8 ∧ (encodeFrame p v)[1]? = some (BitVec.ofNat 8 (min v 255)))

/-- spec/43_frame_encoder.md R164: the encoder's checksum is the byte-for-byte sum the decoder computes (the spec's derivation). For a payload shorter than the clamped length,
where a send is refused, that ENCODE gives anything is the model's choice (log entry 28). -/
def Obligations.EncodersChecksumIsTheDecodersSum : Prop :=
  ∀ (p : List Byte) (length : Nat),
    encodeFrame p length = withChecksum (txHeader (min length 255) ++ p.take (min length 255))

/-- spec/30_encoding.md R80, spec/43_frame_encoder.md R165, R168: the transmit headers as operations of their own put their bytes on the wire in HOLD and are refused
elsewhere; the long form carries no length below 64. That they run on their own, and under the conditions of a send, is the model's choice (log entry 12). -/
def Obligations.TransmitHeadersGoOnTheWire : Prop :=
  (∀ (l : BitVec 6) (s : State), s.mode = .hold → ∃ t, exec (.txhShort l) s = .next t ∧ SameMemory s t ∧
    t = { s with rxen := true, trace := s.trace ++ [.rxen false, .txByte (l.zeroExtend 8), .awaitLastBit, .rxen true] }) ∧
  (∀ (l : Byte) (s : State), s.mode = .hold → 64 ≤ l.toNat → ∃ t, exec (.txhLong l) s = .next t ∧ SameMemory s t ∧
    t = { s with rxen := true,
                 trace := s.trace ++ [.rxen false, .txByte 0x00#8, .txByte l, .awaitLastBit, .rxen true] }) ∧
  (∀ (l : BitVec 6) (s : State), s.mode ≠ .hold → exec (.txhShort l) s = .refused .sendOutsideHold) ∧
  (∀ (l : Byte) (s : State), s.mode ≠ .hold → exec (.txhLong l) s = .refused .sendOutsideHold) ∧
  (∀ (l : Byte) (s : State), s.mode = .hold → l.toNat < 64 → exec (.txhLong l) s = .refused .shortLengthInLongHeader)

/-! ## The synchronizer -/

/-- spec/44_synchronizer.md R181, R183: in RUN a byte goes to the decoder; NeedMore changes nothing more, Done enters HOLD and raises frame_done, an error forces the
resynchronization. -/
def Obligations.ReceivedByteInRun : Prop :=
  ∀ (b : Byte) (s : State) (g : Frame), s.mode = .run →
    (feed b s.frame = some (.needMore, g) → ∃ t, exec (.syRxbyte b) s = .next t ∧ SameMemory s t ∧
      t = { s with frame := g, trace := s.trace ++ [.result (.feed .needMore)], owesResync := false }) ∧
    (feed b s.frame = some (.done, g) → ∃ t, exec (.syRxbyte b) s = .next t ∧ SameMemory s t ∧
      t = { s with frame := g, mode := .hold, trace := s.trace ++ [.result (.feed .done), .frameDone],
                   owesResync := false, acc8 := t.acc8, fresh := t.fresh }) ∧
    (∀ c : Cause, feed b s.frame = some (.error c, g) → ∃ t, exec (.syRxbyte b) s = .next t ∧ SameMemory s t ∧
      t = { s with
        frame := { g with hlenExp := 0#3, dlenExp := 0#8, hrx := 0#3, drx := 0#9 }
        mode := .purge, pT := s.params.tIdle, pret := .run, rxen := true, link := .disconnected, flash := .locked
        trace := s.trace ++ [.result (.feed (.error c)), .sessionReset, .linkReset], quiet := 0, owesResync := false
        acc8 := t.acc8, fresh := t.fresh })

/-- spec/44_synchronizer.md R182: any link error in RUN, of any kind and whatever the frame, forces the resynchronization. -/
def Obligations.LinkErrorForcesResynchronization : Prop :=
  ∀ (k : LinkError) (s : State), s.mode = .run → ∃ t, exec (.syRxerr k) s = .next t ∧ SameMemory s t ∧
    t = { s with
      frame := { s.frame with hlenExp := 0#3, dlenExp := 0#8, hrx := 0#3, drx := 0#9 }
      mode := .purge, pT := s.params.tIdle, pret := .run, rxen := true, link := .disconnected, flash := .locked
      trace := s.trace ++ [.sessionReset, .linkReset], quiet := 0, owesResync := false }

/-- spec/44_synchronizer.md R185, spec/60_exceptions.md R250: the resynchronization in RUN on an error that is still owed it, and its refusal in HOLD and PURGE, where
it never runs, and in RUN without an error. A byte whose feed ends in an error, fed by FD.FEED and followed by SY.RESYNC, does what the reaction to the received byte does.
That the two can be invoked apart is the model's choice (log entry 11); that it resets the link is the spec's decision D14. -/
def Obligations.ResynchronizationEffects : Prop :=
  (∀ s : State, s.mode = .run → s.owesResync = true → ∃ t, exec .syResync s = .next t ∧ SameMemory s t ∧
    t = { s with
      frame := { s.frame with hlenExp := 0#3, dlenExp := 0#8, hrx := 0#3, drx := 0#9 }
      mode := .purge, pT := s.params.tIdle, pret := .run, rxen := true, link := .disconnected, flash := .locked
      trace := s.trace ++ [.sessionReset, .linkReset], quiet := 0, owesResync := false }) ∧
  (∀ s : State, s.mode ≠ .run → exec .syResync s = .refused .resyncOutsideRun) ∧
  (∀ s : State, s.mode = .run → s.owesResync = false → exec .syResync s = .refused .resyncWithoutError) ∧
  (∀ (b : Byte) (s : State) (c : Cause) (g : Frame), s.mode = .run → feed b s.frame = some (.error c, g) →
    ∃ t, exec (.fdFeed b) s = .next t ∧ t.owesResync = true ∧ exec .syResync t = exec (.syRxbyte b) s)

/-- spec/44_synchronizer.md R184, R176, R188: a Quiet event changes nothing in RUN whatever its duration; in PURGE it ends the purge when it makes up the quiet period, with
the Quiet events adjacent before it, and otherwise changes no state of the block; two adjacent ones do what one of the summed duration does, unless the first has already given the
block back to the host. Where the sum is kept is the model's choice (log entry 14). -/
def Obligations.QuietEvent : Prop :=
  (∀ (d : Nat) (s : State), s.mode = .run → exec (.syQuiet d) s = .next s) ∧
  (∀ (d : Nat) (s : State), s.mode = .purge → s.quiet + d < s.pT → ∃ t, exec (.syQuiet d) s = .next t ∧ SameMemory s t ∧
    t = { s with quiet := s.quiet + d }) ∧
  (∀ (d : Nat) (s : State), s.mode = .purge → s.pT ≤ s.quiet + d → ∃ t, exec (.syQuiet d) s = .next t ∧ SameMemory s t ∧
    t = { s with mode := (match s.pret with | .run => .run | .hold => .hold), quiet := 0 }) ∧
  (∀ (d e : Nat) (s t : State), s.mode ≠ .hold → exec (.syQuiet d) s = .next t → t.mode ≠ .hold →
    exec (.syQuiet e) t = exec (.syQuiet (d + e)) s)

/-- spec/44_synchronizer.md R188: in PURGE a byte is discarded, and a link error is discarded and answered with link_reset (the spec's decision D14); either starts the quiet
interval again (log entry 14). -/
def Obligations.PurgeDiscards : Prop :=
  (∀ (b : Byte) (s : State), s.mode = .purge → ∃ t, exec (.syRxbyte b) s = .next t ∧ SameMemory s t ∧ t = { s with quiet := 0 }) ∧
  (∀ (k : LinkError) (s : State), s.mode = .purge → ∃ t, exec (.syRxerr k) s = .next t ∧ SameMemory s t ∧
    t = { s with rxen := true, trace := s.trace ++ [.linkReset], quiet := 0 })

/-- spec/44_synchronizer.md R187: the host's purge in HOLD, and its refusal elsewhere. -/
def Obligations.HostPurge : Prop :=
  (∀ (d : Nat) (s : State), s.mode = .hold → ∃ t, exec (.syPurge d) s = .next t ∧ SameMemory s t ∧
    t = { s with pT := d, pret := .hold, mode := .purge, quiet := 0 }) ∧
  (∀ (d : Nat) (s : State), s.mode ≠ .hold → exec (.syPurge d) s = .refused .purgeOutsideHold)

/-- spec/44_synchronizer.md R190: release in HOLD, and its refusal elsewhere (an operation of the spec's own, decision D17). -/
def Obligations.ReleaseEndsTheHold : Prop :=
  (∀ s : State, s.mode = .hold → ∃ t, exec .syRelease s = .next t ∧ SameMemory s t ∧
    t = { s with frame := { s.frame with hlenExp := 0#3, dlenExp := 0#8, hrx := 0#3, drx := 0#9 }, mode := .run }) ∧
  (∀ s : State, s.mode ≠ .hold → exec .syRelease s = .refused .releaseOutsideHold)

/-- spec/44_synchronizer.md R192: reinitialization in HOLD puts out link_reinit(div) and changes no state of the block; elsewhere it is refused. -/
def Obligations.ReinitializationPassesTheDivisor : Prop :=
  (∀ (div : Nat) (s : State), s.mode = .hold → ∃ t, exec (.syReinit div) s = .next t ∧ PutsOnly [.linkReinit div] s t) ∧
  (∀ (div : Nat) (s : State), s.mode ≠ .hold → exec (.syReinit div) s = .refused .reinitOutsideHold)

/-- spec/44_synchronizer.md R186: neither the resynchronization nor anything during a purge nor any reaction to a receive event transmits anything. -/
def Obligations.ResynchronizationIsSilent : Prop :=
  ∀ (i : Instr) (s t : State),
    s.mode = .purge ∨ i = .syResync ∨ (∃ b, i = .syRxbyte b) ∨ (∃ k, i = .syRxerr k) ∨ (∃ d, i = .syQuiet d) →
    exec i s = .next t → t.txLog = s.txLog

/-- spec/44_synchronizer.md R189, spec/70_reset_and_hazards.md R291: from PURGE a step leaves the mode only by a Quiet event that makes up the quiet
period, with the Quiet events adjacent before it (R176), or by reset. -/
def Obligations.PurgeEndsOnlyByQuiet : Prop :=
  ∀ s t : State, s.mode = .purge → step s = .next t → t.mode ≠ .purge →
    (∃ (d : Nat) (p : Packet) (rest : List Input), s.inputs = .packet p :: rest ∧ decode p = .ok (.syQuiet d) ∧ s.pT ≤ s.quiet + d ∧
      t = { s with inputs := rest, mode := s.pret.toMode, quiet := 0 }) ∨
    (∃ rest : List Input, s.inputs = .reset :: rest)

/-- spec/44_synchronizer.md R177: the mode moves only as the table of transitions says, by an operation in any state and across any step: a step that changes the mode
took an operation that makes one of the listed moves, or a reset, which leads to RUN. So host reads, session acts and changes of the memory never move it. The row of a decoder error also
covers its two operations invoked apart, FD.FEED with an Error and then SY.RESYNC, which is the model's choice (log entry 11). -/
def Obligations.ModeMovesOnlyAsListed : Prop :=
  (∀ (i : Instr) (s t : State), exec i s = .next t → t.mode ≠ s.mode → ModeMove i s t) ∧
  (∀ s t : State, step s = .next t → t.mode ≠ s.mode →
    (∃ i, Takes s i ∧ ModeMove i s t) ∨ ((∃ u, fetch s = some (.reset, u)) ∧ t.mode = .run))

/-- spec/45_host_context.md R206, spec/10_state.md R32: across any step, Connected is entered only by a StartCommunication of the host, Unlocked only by a successful
prepare-to-reflash while Connected, and both are left only by an input that forces a resynchronization, reset, or (Unlocked) a repeated StartCommunication. The host's two
acts do move the session in HOLD (R202, R233); that they are inputs, taken in HOLD only, and that a repeated StartCommunication re-locks, is log entry 17. -/
def Obligations.SessionMovesOnlyAsListed : Prop :=
  (∀ s t : State, step s = .next t →
    (t.link = .connected → s.link = .connected ∨ ∃ u, fetch s = some (.session .startCommunication, u)) ∧
    (t.flash = .unlocked → s.flash = .unlocked ∨
      (s.link = .connected ∧ ∃ u, fetch s = some (.session .prepareToReflash, u))) ∧
    (s.link = .connected → t.link = .disconnected →
      ((∃ i, Takes s i ∧ ForcesResync i s) ∧ t.flash = .locked ∧ t.mode = .purge ∧ t.frame.Zero) ∨
      ∃ u, fetch s = some (.reset, u)) ∧
    (s.flash = .unlocked → t.flash = .locked →
      ((∃ i, Takes s i ∧ ForcesResync i s) ∧ t.link = .disconnected ∧ t.mode = .purge ∧ t.frame.Zero) ∨
      (∃ u, fetch s = some (.reset, u)) ∨ ∃ u, fetch s = some (.session .startCommunication, u))) ∧
  (∀ s : State, s.mode = .hold →
    runInput (.session .startCommunication) s = .next { s with link := .connected, flash := .locked }) ∧
  (∀ s : State, s.mode = .hold → s.link = .connected →
    runInput (.session .prepareToReflash) s = .next { s with flash := .unlocked }) ∧
  (∀ s : State, s.mode = .hold → s.link = .disconnected → runInput (.session .prepareToReflash) s = .next s) ∧
  (∀ (a : SessionAct) (s : State), s.mode ≠ .hold → runInput (.session a) s = .refused .hostActOutsideHold)

/-- spec/44_synchronizer.md R194, spec/60_exceptions.md R250, spec/70_reset_and_hazards.md R282: every step of a disciplined environment keeps what the modes promise: the host
holds only checksum-valid frames, also through a purge it asked for; a purge after an error has a reset frame and a session forced down; in RUN no frame is complete. The
resynchronization, which the discipline leaves to the synchronizer, keeps it too, and under the discipline no error is ever left owing one. -/
def Obligations.StepKeepsTheSynchronizerInvariant : Prop :=
  (∀ s t : State, s.Inv → Disciplined s → step s = .next t → t.Inv) ∧
  (∀ s t : State, s.Inv → exec .syResync s = .next t → t.Inv) ∧
  (∀ s t : State, Disciplined s → s.owesResync = false → step s = .next t → t.owesResync = false)

/-- spec/10_state.md R41: the invariant of the synchronizer holds right after reset. That the memory is a list in canonical form, nothing listed at reset, is the
model's choice (log entry 6). -/
def Obligations.ResetMeetsTheInvariants : Prop :=
  State.reset.Inv ∧ Memory.wf State.reset.mem

/-- spec/42_frame_decoder.md R148, last sentence: inside the block a receive event is never refused. -/
def Obligations.ReceiveEventIsNeverRefused : Prop :=
  ∀ (s : State) (i : Instr) (rest : List Input), s.Inv → s.mode ≠ .hold →
    (∃ b, i = .syRxbyte b) ∨ (∃ k, i = .syRxerr k) ∨ (∃ d, i = .syQuiet d) → s.inputs = .packet (encode i) :: rest →
    ∃ t, step s = .next t

/-! ## Memory, ports, environment -/

/-- spec/20_memory.md R57: no operation of the block writes the external memory; only a change of the platform's own memory does, at its one address, and the canonical form
of the model's list is kept. -/
def Obligations.OnlyThePlatformChangesMemory : Prop :=
  ∀ s t : State, step s = .next t →
    (Memory.wf s.mem → Memory.wf t.mem) ∧
    ((t.mem = s.mem ∧ SameMemory s t) ∨
      ∃ a b u, fetch s = some (.platformWrite a b, u) ∧
        (Memory.wf s.mem → memRead t.mem a.toNat = b) ∧ ∀ x : Nat, x ≠ a.toNat → memRead t.mem x = memRead s.mem x)

/-- What the ports have put out is never taken back but by reset, the parameters never change, and outside HOLD nothing is transmitted
(spec/43_frame_encoder.md R168, spec/00_scope.md R13; the record is the model's choice, log entry 1). -/
def Obligations.PortsOnlyAddAndTransmitOnlyInHold : Prop :=
  ∀ s t : State, step s = .next t →
    t.params = s.params ∧
    ((∃ u, fetch s = some (.reset, u)) ∨
      ((∃ os, t.trace = s.trace ++ os) ∧ (s.mode ≠ .hold → t.txLog = s.txLog)))

/-- spec/20_memory.md R53, spec/93_implementation_defined.md U3: the host reads the counts and the received bytes in HOLD, and is refused elsewhere; nothing but the record
changes. A byte at or above the received count reads as some value, a free one, and the counter of free values advances (log entry 16). -/
def Obligations.HostReadsTheReceivedBytes : Prop :=
  (∀ (r : HostRead) (s : State), s.mode ≠ .hold → runInput (.hostRead r) s = .refused .hostReadOutsideHold) ∧
  (∀ s : State, s.mode = .hold →
    runInput (.hostRead .hlenExp) s = .next { s with trace := s.trace ++ [.hostRead .hlenExp s.frame.hlenExp.toNat] } ∧
    runInput (.hostRead .dlenExp) s = .next { s with trace := s.trace ++ [.hostRead .dlenExp s.frame.dlenExp.toNat] } ∧
    runInput (.hostRead .hrx) s = .next { s with trace := s.trace ++ [.hostRead .hrx s.frame.hrx.toNat] } ∧
    runInput (.hostRead .drx) s = .next { s with trace := s.trace ++ [.hostRead .drx s.frame.drx.toNat] }) ∧
  (∀ (s : State) (i : Fin 4), s.mode = .hold → i.val < s.frame.hrx.toNat →
    runInput (.hostRead (.hbuf i)) s = .next { s with trace := s.trace ++ [.hostRead (.hbuf i) s.frame.hbuf[i].toNat] }) ∧
  (∀ (s : State) (j : Fin 256), s.mode = .hold → j.val < s.frame.drx.toNat →
    runInput (.hostRead (.pbuf j)) s = .next { s with trace := s.trace ++ [.hostRead (.pbuf j) s.frame.pbuf[j].toNat] }) ∧
  (∀ (s : State) (i : Fin 4), s.mode = .hold → s.frame.hrx.toNat ≤ i.val → ∃ b : Byte,
    runInput (.hostRead (.hbuf i)) s =
      .next { s with trace := s.trace ++ [.hostRead (.hbuf i) b.toNat], fresh := s.fresh + 1 }) ∧
  (∀ (s : State) (j : Fin 256), s.mode = .hold → s.frame.drx.toNat ≤ j.val → ∃ b : Byte,
    runInput (.hostRead (.pbuf j)) s =
      .next { s with trace := s.trace ++ [.hostRead (.pbuf j) b.toNat], fresh := s.fresh + 1 })

/-- spec/70_reset_and_hazards.md R271: reset in any mode and at any point of a frame. What stays (the parameters, the memory, the inputs) is the model's choice (log entry 15). -/
def Obligations.ResetInAnyMode : Prop :=
  ∀ s : State, ∃ t, runInput .reset s = .next t ∧ SameMemory s t ∧ t.frame.Zero ∧ t.mode = .run ∧ t.rxen = true ∧
    t.pT = t.params.tIdle ∧ t.pret = .run ∧ t.link = .disconnected ∧ t.flash = .locked ∧ t.trace = [] ∧ t.quiet = 0 ∧ t.owesResync = false ∧ t.params = s.params ∧
    t.inputs = s.inputs

/-- spec/44_synchronizer.md R193: the set-speed sequence from HOLD: the acknowledgement is wholly on the wire before the link is reinitialized, the purge waits for the
settle period and returns to HOLD, and the session is not touched. -/
def Obligations.SetSpeedAcknowledgesFirst : Prop :=
  ∀ (ack : List Byte) (div : Nat) (s : State), s.mode = .hold → ack.length ≤ 255 →
    ∃ t u v : State, exec (.feSend ack ack.length) s = .next t ∧ exec (.syReinit div) t = .next u ∧
      exec (.syPurge s.params.tSettle) u = .next v ∧
      v.trace = s.trace ++ (.rxen false :: (encodeFrame ack ack.length).map .txByte ++
        [.awaitLastBit, .rxen true, .linkReinit div]) ∧
      v.mode = .purge ∧ v.pT = s.params.tSettle ∧ v.pret = .hold ∧ v.frame = s.frame ∧ v.link = s.link ∧ v.flash = s.flash
end

