-- ==== Sys2Proof/Laws/Checksum.lean ====
section
/-! SUPPORT. The two sums in the sum of the bytes as natural numbers. -/

namespace Sys2Proof.Machine

/-- A running SUM8 from any start. -/
theorem foldl_add_toNat (bs : List Byte) (acc : Byte) :
    (bs.foldl (fun acc b => acc + b) acc).toNat = (acc.toNat + (bs.map BitVec.toNat).sum) % 256 := by
  induction bs generalizing acc with
  | nil => simpa using (Nat.mod_eq_of_lt acc.isLt).symm
  | cons b rest ih =>
    rw [List.foldl_cons, ih]
    simp only [BitVec.toNat_add, List.map_cons, List.sum_cons]
    omega

/-- SUM8 in the true sum of the bytes. -/
theorem sum8_toNat (bs : List Byte) : (sum8 bs).toNat = (bs.map BitVec.toNat).sum % 256 := by
  simp [sum8, foldl_add_toNat]

/-- SUM8 of two sequences one after the other. -/
theorem sum8_append (s t : List Byte) : sum8 (s ++ t) = sum8 s + sum8 t := by
  apply BitVec.eq_of_toNat_eq
  simp only [sum8, BitVec.toNat_add, foldl_add_toNat, List.map_append, List.sum_append]
  simp

/-- One end-around addition is addition modulo 255 that stays in a byte. -/
theorem addEndAround_toNat (acc b : Byte) :
    (addEndAround acc b).toNat = if 255 < acc.toNat + b.toNat then acc.toNat + b.toNat - 255 else acc.toNat + b.toNat := by
  have h1 := acc.isLt
  have h2 := b.isLt
  unfold addEndAround
  dsimp only
  split <;> simp only [BitVec.toNat_ofNat] <;> omega

end Sys2Proof.Machine
end

