-- ==== Sys2Proof/Laws/Crc.lean ====
section
/-! SUPPORT. The CRC register's shift is linear over exclusive or. -/

namespace Sys2Proof.Machine

/-- A shift of a sum is the sum of the shifts. -/
theorem crcShift_xor (c d : Half) : crcShift (c ^^^ d) = crcShift c ^^^ crcShift d := by
  unfold crcShift
  have hx : (c ^^^ d).getLsbD 15 = (c.getLsbD 15 ^^ d.getLsbD 15) := BitVec.getLsbD_xor
  have hs : (c ^^^ d) <<< 1 = (c <<< 1) ^^^ (d <<< 1) := BitVec.shiftLeft_xor_distrib c d 1
  rw [hx, hs]
  cases c.getLsbD 15 <;> cases d.getLsbD 15 <;> simp <;> ext i <;> simp <;>
    cases (Config.crcPoly)[i] <;> simp [Bool.xor_comm]

/-- Several shifts of a sum are the sum of the shifts. -/
theorem crcShifts_xor (n : Nat) (c d : Half) : crcShifts n (c ^^^ d) = crcShifts n c ^^^ crcShifts n d := by
  induction n generalizing c d with
  | zero => rfl
  | succ n ih => simp only [crcShifts, crcShift_xor, ih]

/-- The CRC over a sequence, one byte after another. -/
theorem crc16_append (p : Params) (s t : List Byte) :
    crc16 p (s ++ t) = crcOut p (t.foldl (crcByte p) (s.foldl (crcByte p) p.crcInit)) := by
  simp [crc16, List.foldl_append]

end Sys2Proof.Machine
end

