-- ==== Sys2Proof/Laws/Encoding.lean ====
section
/-! SUPPORT. The format byte: its fields, its classes, and the header length. -/

namespace Sys2Proof

@[simp] theorem addressing_formatByte (a : BitVec 2) (l : BitVec 6) : addressing (formatByte a l) = a := by
  revert a l; decide +kernel

@[simp] theorem lengthInFormat_formatByte (a : BitVec 2) (l : BitVec 6) : lengthInFormat (formatByte a l) = l := by
  revert a l; decide +kernel

/-- A format byte is its two fields. -/
theorem formatByte_fields (b : Byte) : formatByte (addressing b) (lengthInFormat b) = b := by
  revert b; decide +kernel

/-- The operation a first byte is classified as is encoded by that byte. -/
theorem encode_classify (b : Byte) : encode (classify b) = .wireRx b := by
  revert b; decide +kernel

/-- The class of a byte `01xxxxxx`. -/
theorem classify_fmtBad (x : BitVec 6) : classify (formatByte 0b01#2 x) = .fmtBad x := by
  revert x; decide +kernel

/-- The class of `1x000000`. -/
theorem classify_fmtALb (x : Bool) : classify (formatByte (addressedField x) 0#6) = .fmtALb x := by
  revert x; decide +kernel

/-- The class of `00LLLLLL`, `L` nonzero. -/
theorem classify_fmtNLif (l : BitVec 6) (h : l ≠ 0#6) : classify (formatByte 0b00#2 l) = .fmtNLif l := by
  revert l; decide +kernel

/-- The class of `1xLLLLLL`, `L` nonzero. -/
theorem classify_fmtALif (x : Bool) (l : BitVec 6) (h : l ≠ 0#6) :
    classify (formatByte (addressedField x) l) = .fmtALif x l := by
  revert x l; decide +kernel

/-- The short transmit header is a byte below 64. -/
theorem shortHeader_top (l : BitVec 6) : formatByte 0b00#2 l &&& 0xC0#8 = 0x00#8 := by
  revert l; decide +kernel

/-- The decoder's test for the rejected mode is on the addressing field alone. -/
@[simp] theorem badFormat_formatByte (a : BitVec 2) (l : BitVec 6) : Machine.badFormat (formatByte a l) = (a == 0b01#2) := by
  simp [Machine.badFormat]

/-- A header has 1 to 4 bytes (spec/30_encoding.md R75). -/
theorem headerLength_range (b : Byte) : 1 ≤ Machine.headerLength b ∧ Machine.headerLength b ≤ 4 := by
  unfold Machine.headerLength; split <;> split <;> omega

/-- The data length in a format byte is its low six bits. -/
theorem formatDataLength_toNat (b : Byte) : (Machine.formatDataLength b).toNat = (lengthInFormat b).toNat := by
  revert b; decide +kernel

end Sys2Proof
end

