-- ==== Sys2Proof/Laws/State.lean ====
section
/-! SUPPORT. One lemma per field per update of the state, so that no later proof unfolds a record update. -/

namespace Sys2Proof.Machine

/-! ## emit -/

@[simp] theorem emit_frame (s : State) (o : Output) : (s.emit o).frame = s.frame := rfl
@[simp] theorem emit_mode (s : State) (o : Output) : (s.emit o).mode = s.mode := rfl
@[simp] theorem emit_pT (s : State) (o : Output) : (s.emit o).pT = s.pT := rfl
@[simp] theorem emit_pret (s : State) (o : Output) : (s.emit o).pret = s.pret := rfl
@[simp] theorem emit_rxen (s : State) (o : Output) : (s.emit o).rxen = s.rxen := rfl
@[simp] theorem emit_link (s : State) (o : Output) : (s.emit o).link = s.link := rfl
@[simp] theorem emit_flash (s : State) (o : Output) : (s.emit o).flash = s.flash := rfl
@[simp] theorem emit_acc8 (s : State) (o : Output) : (s.emit o).acc8 = s.acc8 := rfl
@[simp] theorem emit_crc (s : State) (o : Output) : (s.emit o).crc = s.crc := rfl
@[simp] theorem emit_params (s : State) (o : Output) : (s.emit o).params = s.params := rfl
@[simp] theorem emit_mem (s : State) (o : Output) : (s.emit o).mem = s.mem := rfl
@[simp] theorem emit_inputs (s : State) (o : Output) : (s.emit o).inputs = s.inputs := rfl
@[simp] theorem emit_trace (s : State) (o : Output) : (s.emit o).trace = s.trace ++ [o] := rfl
@[simp] theorem emit_quiet (s : State) (o : Output) : (s.emit o).quiet = s.quiet := rfl
@[simp] theorem emit_owesResync (s : State) (o : Output) : (s.emit o).owesResync = s.owesResync := rfl
@[simp] theorem emit_fresh (s : State) (o : Output) : (s.emit o).fresh = s.fresh := rfl

/-! ## emitAll -/

@[simp] theorem emitAll_frame (s : State) (os : List Output) : (s.emitAll os).frame = s.frame := rfl
@[simp] theorem emitAll_mode (s : State) (os : List Output) : (s.emitAll os).mode = s.mode := rfl
@[simp] theorem emitAll_pT (s : State) (os : List Output) : (s.emitAll os).pT = s.pT := rfl
@[simp] theorem emitAll_pret (s : State) (os : List Output) : (s.emitAll os).pret = s.pret := rfl
@[simp] theorem emitAll_rxen (s : State) (os : List Output) : (s.emitAll os).rxen = s.rxen := rfl
@[simp] theorem emitAll_link (s : State) (os : List Output) : (s.emitAll os).link = s.link := rfl
@[simp] theorem emitAll_flash (s : State) (os : List Output) : (s.emitAll os).flash = s.flash := rfl
@[simp] theorem emitAll_acc8 (s : State) (os : List Output) : (s.emitAll os).acc8 = s.acc8 := rfl
@[simp] theorem emitAll_crc (s : State) (os : List Output) : (s.emitAll os).crc = s.crc := rfl
@[simp] theorem emitAll_params (s : State) (os : List Output) : (s.emitAll os).params = s.params := rfl
@[simp] theorem emitAll_mem (s : State) (os : List Output) : (s.emitAll os).mem = s.mem := rfl
@[simp] theorem emitAll_inputs (s : State) (os : List Output) : (s.emitAll os).inputs = s.inputs := rfl
@[simp] theorem emitAll_trace (s : State) (os : List Output) : (s.emitAll os).trace = s.trace ++ os := rfl
@[simp] theorem emitAll_quiet (s : State) (os : List Output) : (s.emitAll os).quiet = s.quiet := rfl
@[simp] theorem emitAll_owesResync (s : State) (os : List Output) : (s.emitAll os).owesResync = s.owesResync := rfl
@[simp] theorem emitAll_fresh (s : State) (os : List Output) : (s.emitAll os).fresh = s.fresh := rfl

/-! ## answer -/

@[simp] theorem answer_frame (s : State) (r : Result) : (s.answer r).frame = s.frame := rfl
@[simp] theorem answer_mode (s : State) (r : Result) : (s.answer r).mode = s.mode := rfl
@[simp] theorem answer_pT (s : State) (r : Result) : (s.answer r).pT = s.pT := rfl
@[simp] theorem answer_pret (s : State) (r : Result) : (s.answer r).pret = s.pret := rfl
@[simp] theorem answer_rxen (s : State) (r : Result) : (s.answer r).rxen = s.rxen := rfl
@[simp] theorem answer_link (s : State) (r : Result) : (s.answer r).link = s.link := rfl
@[simp] theorem answer_flash (s : State) (r : Result) : (s.answer r).flash = s.flash := rfl
@[simp] theorem answer_acc8 (s : State) (r : Result) : (s.answer r).acc8 = s.acc8 := rfl
@[simp] theorem answer_crc (s : State) (r : Result) : (s.answer r).crc = s.crc := rfl
@[simp] theorem answer_params (s : State) (r : Result) : (s.answer r).params = s.params := rfl
@[simp] theorem answer_mem (s : State) (r : Result) : (s.answer r).mem = s.mem := rfl
@[simp] theorem answer_inputs (s : State) (r : Result) : (s.answer r).inputs = s.inputs := rfl
@[simp] theorem answer_trace (s : State) (r : Result) : (s.answer r).trace = s.trace ++ [.result r] := rfl
@[simp] theorem answer_quiet (s : State) (r : Result) : (s.answer r).quiet = s.quiet := rfl
@[simp] theorem answer_owesResync (s : State) (r : Result) : (s.answer r).owesResync = s.owesResync := rfl
@[simp] theorem answer_fresh (s : State) (r : Result) : (s.answer r).fresh = s.fresh := rfl

/-! ## linkReset -/

@[simp] theorem linkReset_frame (s : State) : (linkReset s).frame = s.frame := rfl
@[simp] theorem linkReset_mode (s : State) : (linkReset s).mode = s.mode := rfl
@[simp] theorem linkReset_pT (s : State) : (linkReset s).pT = s.pT := rfl
@[simp] theorem linkReset_pret (s : State) : (linkReset s).pret = s.pret := rfl
@[simp] theorem linkReset_rxen (s : State) : (linkReset s).rxen = true := rfl
@[simp] theorem linkReset_link (s : State) : (linkReset s).link = s.link := rfl
@[simp] theorem linkReset_flash (s : State) : (linkReset s).flash = s.flash := rfl
@[simp] theorem linkReset_acc8 (s : State) : (linkReset s).acc8 = s.acc8 := rfl
@[simp] theorem linkReset_crc (s : State) : (linkReset s).crc = s.crc := rfl
@[simp] theorem linkReset_params (s : State) : (linkReset s).params = s.params := rfl
@[simp] theorem linkReset_mem (s : State) : (linkReset s).mem = s.mem := rfl
@[simp] theorem linkReset_inputs (s : State) : (linkReset s).inputs = s.inputs := rfl
@[simp] theorem linkReset_trace (s : State) : (linkReset s).trace = s.trace ++ [.linkReset] := rfl
@[simp] theorem linkReset_quiet (s : State) : (linkReset s).quiet = s.quiet := rfl
@[simp] theorem linkReset_owesResync (s : State) : (linkReset s).owesResync = s.owesResync := rfl
@[simp] theorem linkReset_fresh (s : State) : (linkReset s).fresh = s.fresh := rfl

/-! ## transmit -/

@[simp] theorem transmit_frame (bs : List Byte) (s : State) : (transmit bs s).frame = s.frame := rfl
@[simp] theorem transmit_mode (bs : List Byte) (s : State) : (transmit bs s).mode = s.mode := rfl
@[simp] theorem transmit_pT (bs : List Byte) (s : State) : (transmit bs s).pT = s.pT := rfl
@[simp] theorem transmit_pret (bs : List Byte) (s : State) : (transmit bs s).pret = s.pret := rfl
@[simp] theorem transmit_rxen (bs : List Byte) (s : State) : (transmit bs s).rxen = true := rfl
@[simp] theorem transmit_link (bs : List Byte) (s : State) : (transmit bs s).link = s.link := rfl
@[simp] theorem transmit_flash (bs : List Byte) (s : State) : (transmit bs s).flash = s.flash := rfl
@[simp] theorem transmit_acc8 (bs : List Byte) (s : State) : (transmit bs s).acc8 = s.acc8 := rfl
@[simp] theorem transmit_crc (bs : List Byte) (s : State) : (transmit bs s).crc = s.crc := rfl
@[simp] theorem transmit_params (bs : List Byte) (s : State) : (transmit bs s).params = s.params := rfl
@[simp] theorem transmit_mem (bs : List Byte) (s : State) : (transmit bs s).mem = s.mem := rfl
@[simp] theorem transmit_inputs (bs : List Byte) (s : State) : (transmit bs s).inputs = s.inputs := rfl
@[simp] theorem transmit_trace (bs : List Byte) (s : State) : (transmit bs s).trace = s.trace ++ (.rxen false :: bs.map .txByte ++ [.awaitLastBit, .rxen true]) := rfl
@[simp] theorem transmit_quiet (bs : List Byte) (s : State) : (transmit bs s).quiet = s.quiet := rfl
@[simp] theorem transmit_owesResync (bs : List Byte) (s : State) : (transmit bs s).owesResync = s.owesResync := rfl
@[simp] theorem transmit_fresh (bs : List Byte) (s : State) : (transmit bs s).fresh = s.fresh := rfl

/-! ## spendAcc8 -/

@[simp] theorem spendAcc8_frame (s : State) : (spendAcc8 s).frame = s.frame := rfl
@[simp] theorem spendAcc8_mode (s : State) : (spendAcc8 s).mode = s.mode := rfl
@[simp] theorem spendAcc8_pT (s : State) : (spendAcc8 s).pT = s.pT := rfl
@[simp] theorem spendAcc8_pret (s : State) : (spendAcc8 s).pret = s.pret := rfl
@[simp] theorem spendAcc8_rxen (s : State) : (spendAcc8 s).rxen = s.rxen := rfl
@[simp] theorem spendAcc8_link (s : State) : (spendAcc8 s).link = s.link := rfl
@[simp] theorem spendAcc8_flash (s : State) : (spendAcc8 s).flash = s.flash := rfl
@[simp] theorem spendAcc8_acc8 (s : State) : (spendAcc8 s).acc8 = Config.freeByte s.fresh := rfl
@[simp] theorem spendAcc8_crc (s : State) : (spendAcc8 s).crc = s.crc := rfl
@[simp] theorem spendAcc8_params (s : State) : (spendAcc8 s).params = s.params := rfl
@[simp] theorem spendAcc8_mem (s : State) : (spendAcc8 s).mem = s.mem := rfl
@[simp] theorem spendAcc8_inputs (s : State) : (spendAcc8 s).inputs = s.inputs := rfl
@[simp] theorem spendAcc8_trace (s : State) : (spendAcc8 s).trace = s.trace := rfl
@[simp] theorem spendAcc8_quiet (s : State) : (spendAcc8 s).quiet = s.quiet := rfl
@[simp] theorem spendAcc8_owesResync (s : State) : (spendAcc8 s).owesResync = s.owesResync := rfl
@[simp] theorem spendAcc8_fresh (s : State) : (spendAcc8 s).fresh = s.fresh + 1 := rfl

/-! ## spendCrc -/

@[simp] theorem spendCrc_frame (s : State) : (spendCrc s).frame = s.frame := rfl
@[simp] theorem spendCrc_mode (s : State) : (spendCrc s).mode = s.mode := rfl
@[simp] theorem spendCrc_pT (s : State) : (spendCrc s).pT = s.pT := rfl
@[simp] theorem spendCrc_pret (s : State) : (spendCrc s).pret = s.pret := rfl
@[simp] theorem spendCrc_rxen (s : State) : (spendCrc s).rxen = s.rxen := rfl
@[simp] theorem spendCrc_link (s : State) : (spendCrc s).link = s.link := rfl
@[simp] theorem spendCrc_flash (s : State) : (spendCrc s).flash = s.flash := rfl
@[simp] theorem spendCrc_acc8 (s : State) : (spendCrc s).acc8 = s.acc8 := rfl
@[simp] theorem spendCrc_crc (s : State) : (spendCrc s).crc = Config.freeHalf s.fresh := rfl
@[simp] theorem spendCrc_params (s : State) : (spendCrc s).params = s.params := rfl
@[simp] theorem spendCrc_mem (s : State) : (spendCrc s).mem = s.mem := rfl
@[simp] theorem spendCrc_inputs (s : State) : (spendCrc s).inputs = s.inputs := rfl
@[simp] theorem spendCrc_trace (s : State) : (spendCrc s).trace = s.trace := rfl
@[simp] theorem spendCrc_quiet (s : State) : (spendCrc s).quiet = s.quiet := rfl
@[simp] theorem spendCrc_owesResync (s : State) : (spendCrc s).owesResync = s.owesResync := rfl
@[simp] theorem spendCrc_fresh (s : State) : (spendCrc s).fresh = s.fresh + 1 := rfl

/-! ## resetFrame -/

@[simp] theorem resetFrame_frame (s : State) : (resetFrame s).frame = s.frame.zeroCounts := rfl
@[simp] theorem resetFrame_mode (s : State) : (resetFrame s).mode = s.mode := rfl
@[simp] theorem resetFrame_pT (s : State) : (resetFrame s).pT = s.pT := rfl
@[simp] theorem resetFrame_pret (s : State) : (resetFrame s).pret = s.pret := rfl
@[simp] theorem resetFrame_rxen (s : State) : (resetFrame s).rxen = s.rxen := rfl
@[simp] theorem resetFrame_link (s : State) : (resetFrame s).link = s.link := rfl
@[simp] theorem resetFrame_flash (s : State) : (resetFrame s).flash = s.flash := rfl
@[simp] theorem resetFrame_acc8 (s : State) : (resetFrame s).acc8 = s.acc8 := rfl
@[simp] theorem resetFrame_crc (s : State) : (resetFrame s).crc = s.crc := rfl
@[simp] theorem resetFrame_params (s : State) : (resetFrame s).params = s.params := rfl
@[simp] theorem resetFrame_mem (s : State) : (resetFrame s).mem = s.mem := rfl
@[simp] theorem resetFrame_inputs (s : State) : (resetFrame s).inputs = s.inputs := rfl
@[simp] theorem resetFrame_trace (s : State) : (resetFrame s).trace = s.trace := rfl
@[simp] theorem resetFrame_quiet (s : State) : (resetFrame s).quiet = s.quiet := rfl
@[simp] theorem resetFrame_owesResync (s : State) : (resetFrame s).owesResync = s.owesResync := rfl
@[simp] theorem resetFrame_fresh (s : State) : (resetFrame s).fresh = s.fresh := rfl

/-! ## enterPurge -/

@[simp] theorem enterPurge_frame (t : Nat) (r : PurgeReturn) (s : State) : (enterPurge t r s).frame = s.frame := rfl
@[simp] theorem enterPurge_mode (t : Nat) (r : PurgeReturn) (s : State) : (enterPurge t r s).mode = .purge := rfl
@[simp] theorem enterPurge_pT (t : Nat) (r : PurgeReturn) (s : State) : (enterPurge t r s).pT = t := rfl
@[simp] theorem enterPurge_pret (t : Nat) (r : PurgeReturn) (s : State) : (enterPurge t r s).pret = r := rfl
@[simp] theorem enterPurge_rxen (t : Nat) (r : PurgeReturn) (s : State) : (enterPurge t r s).rxen = s.rxen := rfl
@[simp] theorem enterPurge_link (t : Nat) (r : PurgeReturn) (s : State) : (enterPurge t r s).link = s.link := rfl
@[simp] theorem enterPurge_flash (t : Nat) (r : PurgeReturn) (s : State) : (enterPurge t r s).flash = s.flash := rfl
@[simp] theorem enterPurge_acc8 (t : Nat) (r : PurgeReturn) (s : State) : (enterPurge t r s).acc8 = s.acc8 := rfl
@[simp] theorem enterPurge_crc (t : Nat) (r : PurgeReturn) (s : State) : (enterPurge t r s).crc = s.crc := rfl
@[simp] theorem enterPurge_params (t : Nat) (r : PurgeReturn) (s : State) : (enterPurge t r s).params = s.params := rfl
@[simp] theorem enterPurge_mem (t : Nat) (r : PurgeReturn) (s : State) : (enterPurge t r s).mem = s.mem := rfl
@[simp] theorem enterPurge_inputs (t : Nat) (r : PurgeReturn) (s : State) : (enterPurge t r s).inputs = s.inputs := rfl
@[simp] theorem enterPurge_trace (t : Nat) (r : PurgeReturn) (s : State) : (enterPurge t r s).trace = s.trace := rfl
@[simp] theorem enterPurge_quiet (t : Nat) (r : PurgeReturn) (s : State) : (enterPurge t r s).quiet = 0 := rfl
@[simp] theorem enterPurge_owesResync (t : Nat) (r : PurgeReturn) (s : State) : (enterPurge t r s).owesResync = s.owesResync := rfl
@[simp] theorem enterPurge_fresh (t : Nat) (r : PurgeReturn) (s : State) : (enterPurge t r s).fresh = s.fresh := rfl

/-! ## breakQuiet, addQuiet -/

@[simp] theorem breakQuiet_frame (s : State) : (breakQuiet s).frame = s.frame := rfl
@[simp] theorem breakQuiet_mode (s : State) : (breakQuiet s).mode = s.mode := rfl
@[simp] theorem breakQuiet_pT (s : State) : (breakQuiet s).pT = s.pT := rfl
@[simp] theorem breakQuiet_pret (s : State) : (breakQuiet s).pret = s.pret := rfl
@[simp] theorem breakQuiet_rxen (s : State) : (breakQuiet s).rxen = s.rxen := rfl
@[simp] theorem breakQuiet_link (s : State) : (breakQuiet s).link = s.link := rfl
@[simp] theorem breakQuiet_flash (s : State) : (breakQuiet s).flash = s.flash := rfl
@[simp] theorem breakQuiet_acc8 (s : State) : (breakQuiet s).acc8 = s.acc8 := rfl
@[simp] theorem breakQuiet_crc (s : State) : (breakQuiet s).crc = s.crc := rfl
@[simp] theorem breakQuiet_params (s : State) : (breakQuiet s).params = s.params := rfl
@[simp] theorem breakQuiet_mem (s : State) : (breakQuiet s).mem = s.mem := rfl
@[simp] theorem breakQuiet_inputs (s : State) : (breakQuiet s).inputs = s.inputs := rfl
@[simp] theorem breakQuiet_trace (s : State) : (breakQuiet s).trace = s.trace := rfl
@[simp] theorem breakQuiet_owesResync (s : State) : (breakQuiet s).owesResync = s.owesResync := rfl
@[simp] theorem breakQuiet_fresh (s : State) : (breakQuiet s).fresh = s.fresh := rfl
@[simp] theorem breakQuiet_quiet (s : State) : (breakQuiet s).quiet = 0 := rfl
@[simp] theorem addQuiet_frame (d : Nat) (s : State) : (addQuiet d s).frame = s.frame := rfl
@[simp] theorem addQuiet_mode (d : Nat) (s : State) : (addQuiet d s).mode = s.mode := rfl
@[simp] theorem addQuiet_pT (d : Nat) (s : State) : (addQuiet d s).pT = s.pT := rfl
@[simp] theorem addQuiet_pret (d : Nat) (s : State) : (addQuiet d s).pret = s.pret := rfl
@[simp] theorem addQuiet_rxen (d : Nat) (s : State) : (addQuiet d s).rxen = s.rxen := rfl
@[simp] theorem addQuiet_link (d : Nat) (s : State) : (addQuiet d s).link = s.link := rfl
@[simp] theorem addQuiet_flash (d : Nat) (s : State) : (addQuiet d s).flash = s.flash := rfl
@[simp] theorem addQuiet_acc8 (d : Nat) (s : State) : (addQuiet d s).acc8 = s.acc8 := rfl
@[simp] theorem addQuiet_crc (d : Nat) (s : State) : (addQuiet d s).crc = s.crc := rfl
@[simp] theorem addQuiet_params (d : Nat) (s : State) : (addQuiet d s).params = s.params := rfl
@[simp] theorem addQuiet_mem (d : Nat) (s : State) : (addQuiet d s).mem = s.mem := rfl
@[simp] theorem addQuiet_inputs (d : Nat) (s : State) : (addQuiet d s).inputs = s.inputs := rfl
@[simp] theorem addQuiet_trace (d : Nat) (s : State) : (addQuiet d s).trace = s.trace := rfl
@[simp] theorem addQuiet_owesResync (d : Nat) (s : State) : (addQuiet d s).owesResync = s.owesResync := rfl
@[simp] theorem addQuiet_fresh (d : Nat) (s : State) : (addQuiet d s).fresh = s.fresh := rfl
@[simp] theorem addQuiet_quiet (d : Nat) (s : State) : (addQuiet d s).quiet = s.quiet + d := rfl

/-! ## forceSession -/

@[simp] theorem forceSession_frame (s : State) : (forceSession s).frame = s.frame := rfl
@[simp] theorem forceSession_mode (s : State) : (forceSession s).mode = s.mode := rfl
@[simp] theorem forceSession_pT (s : State) : (forceSession s).pT = s.pT := rfl
@[simp] theorem forceSession_pret (s : State) : (forceSession s).pret = s.pret := rfl
@[simp] theorem forceSession_rxen (s : State) : (forceSession s).rxen = s.rxen := rfl
@[simp] theorem forceSession_link (s : State) : (forceSession s).link = .disconnected := rfl
@[simp] theorem forceSession_flash (s : State) : (forceSession s).flash = .locked := rfl
@[simp] theorem forceSession_acc8 (s : State) : (forceSession s).acc8 = s.acc8 := rfl
@[simp] theorem forceSession_crc (s : State) : (forceSession s).crc = s.crc := rfl
@[simp] theorem forceSession_params (s : State) : (forceSession s).params = s.params := rfl
@[simp] theorem forceSession_mem (s : State) : (forceSession s).mem = s.mem := rfl
@[simp] theorem forceSession_inputs (s : State) : (forceSession s).inputs = s.inputs := rfl
@[simp] theorem forceSession_trace (s : State) : (forceSession s).trace = s.trace ++ [.sessionReset] := rfl
@[simp] theorem forceSession_quiet (s : State) : (forceSession s).quiet = s.quiet := rfl
@[simp] theorem forceSession_owesResync (s : State) : (forceSession s).owesResync = s.owesResync := rfl
@[simp] theorem forceSession_fresh (s : State) : (forceSession s).fresh = s.fresh := rfl

/-! ## resync -/

@[simp] theorem resync_frame (s : State) : (resync s).frame = s.frame.zeroCounts := rfl
@[simp] theorem resync_mode (s : State) : (resync s).mode = .purge := rfl
@[simp] theorem resync_pT (s : State) : (resync s).pT = s.params.tIdle := rfl
@[simp] theorem resync_pret (s : State) : (resync s).pret = .run := rfl
@[simp] theorem resync_rxen (s : State) : (resync s).rxen = true := rfl
@[simp] theorem resync_link (s : State) : (resync s).link = .disconnected := rfl
@[simp] theorem resync_flash (s : State) : (resync s).flash = .locked := rfl
@[simp] theorem resync_acc8 (s : State) : (resync s).acc8 = s.acc8 := rfl
@[simp] theorem resync_crc (s : State) : (resync s).crc = s.crc := rfl
@[simp] theorem resync_params (s : State) : (resync s).params = s.params := rfl
@[simp] theorem resync_mem (s : State) : (resync s).mem = s.mem := rfl
@[simp] theorem resync_inputs (s : State) : (resync s).inputs = s.inputs := rfl
@[simp] theorem resync_trace (s : State) : (resync s).trace = s.trace ++ [.sessionReset, .linkReset] :=
  List.append_assoc s.trace [.sessionReset] [.linkReset]
@[simp] theorem resync_quiet (s : State) : (resync s).quiet = 0 := rfl
@[simp] theorem resync_owesResync (s : State) : (resync s).owesResync = false := rfl
@[simp] theorem resync_fresh (s : State) : (resync s).fresh = s.fresh := rfl

/-! ## endPurge -/

@[simp] theorem endPurge_frame (s : State) : (endPurge s).frame = s.frame := rfl
@[simp] theorem endPurge_mode (s : State) : (endPurge s).mode = s.pret.toMode := rfl
@[simp] theorem endPurge_pT (s : State) : (endPurge s).pT = s.pT := rfl
@[simp] theorem endPurge_pret (s : State) : (endPurge s).pret = s.pret := rfl
@[simp] theorem endPurge_rxen (s : State) : (endPurge s).rxen = s.rxen := rfl
@[simp] theorem endPurge_link (s : State) : (endPurge s).link = s.link := rfl
@[simp] theorem endPurge_flash (s : State) : (endPurge s).flash = s.flash := rfl
@[simp] theorem endPurge_acc8 (s : State) : (endPurge s).acc8 = s.acc8 := rfl
@[simp] theorem endPurge_crc (s : State) : (endPurge s).crc = s.crc := rfl
@[simp] theorem endPurge_params (s : State) : (endPurge s).params = s.params := rfl
@[simp] theorem endPurge_mem (s : State) : (endPurge s).mem = s.mem := rfl
@[simp] theorem endPurge_inputs (s : State) : (endPurge s).inputs = s.inputs := rfl
@[simp] theorem endPurge_trace (s : State) : (endPurge s).trace = s.trace := rfl
@[simp] theorem endPurge_quiet (s : State) : (endPurge s).quiet = 0 := rfl
@[simp] theorem endPurge_owesResync (s : State) : (endPurge s).owesResync = s.owesResync := rfl
@[simp] theorem endPurge_fresh (s : State) : (endPurge s).fresh = s.fresh := rfl

/-! ## leaveWithTransport -/

@[simp] theorem leaveWithTransport_frame (i : Instr) (s : State) : (leaveWithTransport i s).frame = s.frame := rfl
@[simp] theorem leaveWithTransport_mode (i : Instr) (s : State) : (leaveWithTransport i s).mode = s.mode := rfl
@[simp] theorem leaveWithTransport_pT (i : Instr) (s : State) : (leaveWithTransport i s).pT = s.pT := rfl
@[simp] theorem leaveWithTransport_pret (i : Instr) (s : State) : (leaveWithTransport i s).pret = s.pret := rfl
@[simp] theorem leaveWithTransport_rxen (i : Instr) (s : State) : (leaveWithTransport i s).rxen = s.rxen := rfl
@[simp] theorem leaveWithTransport_link (i : Instr) (s : State) : (leaveWithTransport i s).link = s.link := rfl
@[simp] theorem leaveWithTransport_flash (i : Instr) (s : State) : (leaveWithTransport i s).flash = s.flash := rfl
@[simp] theorem leaveWithTransport_acc8 (i : Instr) (s : State) : (leaveWithTransport i s).acc8 = s.acc8 := rfl
@[simp] theorem leaveWithTransport_crc (i : Instr) (s : State) : (leaveWithTransport i s).crc = s.crc := rfl
@[simp] theorem leaveWithTransport_params (i : Instr) (s : State) : (leaveWithTransport i s).params = s.params := rfl
@[simp] theorem leaveWithTransport_mem (i : Instr) (s : State) : (leaveWithTransport i s).mem = s.mem := rfl
@[simp] theorem leaveWithTransport_inputs (i : Instr) (s : State) : (leaveWithTransport i s).inputs = .packet (encode i) :: s.inputs := rfl
@[simp] theorem leaveWithTransport_trace (i : Instr) (s : State) : (leaveWithTransport i s).trace = s.trace := rfl
@[simp] theorem leaveWithTransport_quiet (i : Instr) (s : State) : (leaveWithTransport i s).quiet = s.quiet := rfl
@[simp] theorem leaveWithTransport_owesResync (i : Instr) (s : State) : (leaveWithTransport i s).owesResync = s.owesResync := rfl
@[simp] theorem leaveWithTransport_fresh (i : Instr) (s : State) : (leaveWithTransport i s).fresh = s.fresh := rfl

/-! ## readRange -/

@[simp] theorem readRange_frame (a : Addr) (n : Nat) (s : State) : (readRange a n s).frame = s.frame := rfl
@[simp] theorem readRange_mode (a : Addr) (n : Nat) (s : State) : (readRange a n s).mode = s.mode := rfl
@[simp] theorem readRange_pT (a : Addr) (n : Nat) (s : State) : (readRange a n s).pT = s.pT := rfl
@[simp] theorem readRange_pret (a : Addr) (n : Nat) (s : State) : (readRange a n s).pret = s.pret := rfl
@[simp] theorem readRange_rxen (a : Addr) (n : Nat) (s : State) : (readRange a n s).rxen = s.rxen := rfl
@[simp] theorem readRange_link (a : Addr) (n : Nat) (s : State) : (readRange a n s).link = s.link := rfl
@[simp] theorem readRange_flash (a : Addr) (n : Nat) (s : State) : (readRange a n s).flash = s.flash := rfl
@[simp] theorem readRange_acc8 (a : Addr) (n : Nat) (s : State) : (readRange a n s).acc8 = s.acc8 := rfl
@[simp] theorem readRange_crc (a : Addr) (n : Nat) (s : State) : (readRange a n s).crc = s.crc := rfl
@[simp] theorem readRange_params (a : Addr) (n : Nat) (s : State) : (readRange a n s).params = s.params := rfl
@[simp] theorem readRange_mem (a : Addr) (n : Nat) (s : State) : (readRange a n s).mem = s.mem := rfl
@[simp] theorem readRange_inputs (a : Addr) (n : Nat) (s : State) : (readRange a n s).inputs = s.inputs := rfl
@[simp] theorem readRange_trace (a : Addr) (n : Nat) (s : State) : (readRange a n s).trace = s.trace ++ (rangeAddresses a n).map .memRead := rfl
@[simp] theorem readRange_quiet (a : Addr) (n : Nat) (s : State) : (readRange a n s).quiet = s.quiet := rfl
@[simp] theorem readRange_owesResync (a : Addr) (n : Nat) (s : State) : (readRange a n s).owesResync = s.owesResync := rfl
@[simp] theorem readRange_fresh (a : Addr) (n : Nat) (s : State) : (readRange a n s).fresh = s.fresh := rfl

/-! ## changeMemory -/

@[simp] theorem changeMemory_frame (a : Addr) (b : Byte) (s : State) : (changeMemory a b s).frame = s.frame := rfl
@[simp] theorem changeMemory_mode (a : Addr) (b : Byte) (s : State) : (changeMemory a b s).mode = s.mode := rfl
@[simp] theorem changeMemory_pT (a : Addr) (b : Byte) (s : State) : (changeMemory a b s).pT = s.pT := rfl
@[simp] theorem changeMemory_pret (a : Addr) (b : Byte) (s : State) : (changeMemory a b s).pret = s.pret := rfl
@[simp] theorem changeMemory_rxen (a : Addr) (b : Byte) (s : State) : (changeMemory a b s).rxen = s.rxen := rfl
@[simp] theorem changeMemory_link (a : Addr) (b : Byte) (s : State) : (changeMemory a b s).link = s.link := rfl
@[simp] theorem changeMemory_flash (a : Addr) (b : Byte) (s : State) : (changeMemory a b s).flash = s.flash := rfl
@[simp] theorem changeMemory_acc8 (a : Addr) (b : Byte) (s : State) : (changeMemory a b s).acc8 = s.acc8 := rfl
@[simp] theorem changeMemory_crc (a : Addr) (b : Byte) (s : State) : (changeMemory a b s).crc = s.crc := rfl
@[simp] theorem changeMemory_params (a : Addr) (b : Byte) (s : State) : (changeMemory a b s).params = s.params := rfl
@[simp] theorem changeMemory_mem (a : Addr) (b : Byte) (s : State) : (changeMemory a b s).mem = memWrite s.mem a.toNat b := rfl
@[simp] theorem changeMemory_inputs (a : Addr) (b : Byte) (s : State) : (changeMemory a b s).inputs = s.inputs := rfl
@[simp] theorem changeMemory_trace (a : Addr) (b : Byte) (s : State) : (changeMemory a b s).trace = s.trace := rfl
@[simp] theorem changeMemory_quiet (a : Addr) (b : Byte) (s : State) : (changeMemory a b s).quiet = s.quiet := rfl
@[simp] theorem changeMemory_owesResync (a : Addr) (b : Byte) (s : State) : (changeMemory a b s).owesResync = s.owesResync := rfl
@[simp] theorem changeMemory_fresh (a : Addr) (b : Byte) (s : State) : (changeMemory a b s).fresh = s.fresh := rfl

/-! ## The counts of a reset frame -/

@[simp] theorem zeroCounts_hlenExp (f : Frame) : f.zeroCounts.hlenExp = 0#3 := rfl
@[simp] theorem zeroCounts_dlenExp (f : Frame) : f.zeroCounts.dlenExp = 0#8 := rfl
@[simp] theorem zeroCounts_hrx (f : Frame) : f.zeroCounts.hrx = 0#3 := rfl
@[simp] theorem zeroCounts_drx (f : Frame) : f.zeroCounts.drx = 0#9 := rfl
@[simp] theorem zeroCounts_hbuf (f : Frame) : f.zeroCounts.hbuf = f.hbuf := rfl
@[simp] theorem zeroCounts_pbuf (f : Frame) : f.zeroCounts.pbuf = f.pbuf := rfl

end Sys2Proof.Machine
end

