-- ==== Sys2Proof/Laws/Decoder.lean ====
section
/-! SUPPORT. What the decoder can do with a byte, said once. -/

namespace Sys2Proof.Machine

/-- A frame whose first byte is still to come is not complete. -/
theorem complete_of_first {f : Frame} (h : f.hrx = 0#3) : f.complete = false := by
  simp [Frame.complete, Frame.headerComplete, h]

/-- Completeness in the counts. -/
theorem complete_iff (f : Frame) :
    f.complete = true ↔ f.hrx ≠ 0#3 ∧ f.hrx = f.hlenExp ∧ f.drx.toNat = f.dlenExp.toNat + 1 := by
  simp [Frame.complete, Frame.headerComplete, and_assoc]

/-- The header length a format byte sets fits its field. -/
theorem startFrame_hlenExp_toNat (b : Byte) (f : Frame) : (startFrame b f).hlenExp.toNat = headerLength b := by
  have h := headerLength_range b
  simp only [startFrame, BitVec.toNat_ofNat]
  exact Nat.mod_eq_of_lt (by omega)

/-- A first byte always has a header place to go to. -/
theorem startFrame_pending (b : Byte) (f : Frame) (h : f.hrx = 0#3) : (startFrame b f).hrx < (startFrame b f).hlenExp := by
  have h1 := headerLength_range b
  have h2 := startFrame_hlenExp_toNat b f
  have h3 : (startFrame b f).hrx = 0#3 := h
  rw [h3, BitVec.lt_def, h2]
  simp only [BitVec.toNat_ofNat]
  omega

/-- The two steps an accepted first byte takes, as one update of the frame. -/
theorem takeHeaderByte_startFrame (b : Byte) (f : Frame) (h : f.hrx = 0#3) :
    takeHeaderByte b (startFrame b f) = { f with
      hlenExp := BitVec.ofNat 3 (headerLength b)
      dlenExp := if lengthInFormat b = 0#6 then f.dlenExp else formatDataLength b
      hrx := 1#3
      hbuf := f.hbuf.set 0 b } := by
  have e1 : (0#3 : BitVec 3) + 1#3 = 1#3 := by decide
  have e2 : f.hbuf.setIfInBounds (0#3 : BitVec 3).toNat b = f.hbuf.set 0 b := by
    apply Vector.ext
    intro i hi
    simp [Vector.getElem_setIfInBounds, Vector.getElem_set]
  unfold takeHeaderByte startFrame
  simp only [h, e1, e2]
  refine if_neg fun hh => ?_
  obtain ⟨h1, h2⟩ := hh
  simp only [Frame.format, Vector.getElem_set_self] at h2
  have h3 := congrArg BitVec.toNat h1
  simp only [headerLength, h2, if_true] at h3
  split at h3 <;> simp at h3

/-- A data byte beside the header: the header bytes stay. -/
@[simp] theorem takeDataByte_header (b : Byte) (f : Frame) : (takeDataByte b f).header = f.header := rfl

/-- The checksum byte beside the data bytes: the data bytes stay. -/
theorem takeDataByte_data (b : Byte) (f : Frame) (h : f.drx.toNat = f.dlenExp.toNat) : (takeDataByte b f).data = f.data := by
  simp only [Frame.data, takeDataByte]
  rw [Vector.toList_setIfInBounds, h]
  simp [List.take_set_of_le]

/-- A byte fed to a complete frame is refused. -/
theorem feed_complete {f : Frame} (b : Byte) (h : f.complete = true) : feed b f = none := by simp [feed, h]

/-- The rejected first byte. -/
theorem feed_badFormat {f : Frame} {b : Byte} (h : f.hrx = 0#3) (hb : badFormat b = true) :
    feed b f = some (.error .eFmt, f) := by
  simp [feed, complete_of_first h, Frame.first, h, hb]

/-- An accepted first byte: steps 1 and 2. -/
theorem feed_first {f : Frame} {b : Byte} (h : f.hrx = 0#3) (hb : badFormat b = false) :
    feed b f = some (.needMore, takeHeaderByte b (startFrame b f)) := by
  simp [feed, complete_of_first h, Frame.first, h, hb, takeByte, startFrame_pending b f h]

/-- A later header byte: step 2. -/
theorem feed_header {f : Frame} {b : Byte} (h : f.hrx ≠ 0#3) (hl : f.hrx < f.hlenExp) :
    feed b f = some (.needMore, takeHeaderByte b f) := by
  have hne : f.hrx ≠ f.hlenExp := fun e => by simp [e] at hl
  have hc : f.complete = false := by simp [Frame.complete, Frame.headerComplete, hne]
  simp [feed, hc, Frame.first, h, takeByte, hl]

/-- A byte after the header: step 3. -/
theorem feed_data {f : Frame} {b : Byte} (hc : f.complete = false) (h : f.hrx ≠ 0#3) (hl : ¬ f.hrx < f.hlenExp) :
    feed b f = some (checkFrame b (takeDataByte b f), takeDataByte b f) := by
  simp [feed, hc, Frame.first, h, takeByte, hl]

/-- Everything a feed can do. -/
theorem feed_cases {f g : Frame} {b : Byte} {r : FeedResult} (h : feed b f = some (r, g)) :
    f.complete = false ∧
    ((f.hrx = 0#3 ∧ badFormat b = true ∧ r = .error .eFmt ∧ g = f) ∨
     (f.hrx = 0#3 ∧ badFormat b = false ∧ r = .needMore ∧ g = takeHeaderByte b (startFrame b f)) ∨
     (f.hrx ≠ 0#3 ∧ f.hrx < f.hlenExp ∧ r = .needMore ∧ g = takeHeaderByte b f) ∨
     (f.hrx ≠ 0#3 ∧ ¬ f.hrx < f.hlenExp ∧ r = checkFrame b g ∧ g = takeDataByte b f)) := by
  cases hc : f.complete with
  | true => rw [feed_complete b hc] at h; cases h
  | false =>
    refine ⟨rfl, ?_⟩
    by_cases h0 : f.hrx = 0#3
    · cases hb : badFormat b with
      | true => rw [feed_badFormat h0 hb] at h; cases h; exact .inl ⟨h0, rfl, rfl, rfl⟩
      | false => rw [feed_first h0 hb] at h; cases h; exact .inr (.inl ⟨h0, rfl, rfl, rfl⟩)
    · by_cases hl : f.hrx < f.hlenExp
      · rw [feed_header h0 hl] at h; cases h; exact .inr (.inr (.inl ⟨h0, hl, rfl, rfl⟩))
      · rw [feed_data hc h0 hl] at h; cases h; exact .inr (.inr (.inr ⟨h0, hl, rfl, rfl⟩))

/-- A feed is refused exactly on a complete frame. -/
theorem feed_eq_none_iff (b : Byte) (f : Frame) : feed b f = none ↔ f.complete = true := by
  refine ⟨fun h => ?_, feed_complete b⟩
  by_contra hc
  have hc : f.complete = false := by simpa using hc
  by_cases h0 : f.hrx = 0#3
  · cases hb : badFormat b with
    | true => rw [feed_badFormat h0 hb] at h; cases h
    | false => rw [feed_first h0 hb] at h; cases h
  · by_cases hl : f.hrx < f.hlenExp
    · rw [feed_header h0 hl] at h; cases h
    · rw [feed_data hc h0 hl] at h; cases h

/-- What a feed does to the state: the frame, the recorded result and what the caller owes, and `ACC8` when a checksum was compared. -/
theorem feedState_cases {s t : State} {b : Byte} {r : FeedResult} (h : feedState b s = some (r, t)) :
    ∃ g, feed b s.frame = some (r, g) ∧
      t = { s with frame := g, trace := s.trace ++ [.result (.feed r)], owesResync := r.isError && s.mode == .run,
                   acc8 := t.acc8, fresh := t.fresh } ∧
      (r.usesSum = false → t.acc8 = s.acc8 ∧ t.fresh = s.fresh) := by
  unfold feedState at h
  split at h
  · cases h
  · rename_i r' g hf
    cases hu : r'.usesSum <;> simp only [hu] at h <;> cases h
    · exact ⟨g, hf, rfl, fun _ => ⟨rfl, rfl⟩⟩
    · exact ⟨g, hf, rfl, fun e => by simp [hu] at e⟩

/-- A feed on the state is refused exactly on a complete frame. -/
theorem feedState_eq_none_iff (b : Byte) (s : State) : feedState b s = none ↔ s.frame.complete = true := by
  rw [← feed_eq_none_iff b s.frame]
  unfold feedState
  cases feed b s.frame <;> simp

/-- FD.FEED on the state, from the feed on the frame. -/
theorem feedOp_eq {s : State} {g : Frame} {b : Byte} {r : FeedResult} (h : feed b s.frame = some (r, g)) :
    ∃ t, feedOp b s = .next t ∧ feedState b s = some (r, t) ∧
      t = { s with frame := g, trace := s.trace ++ [.result (.feed r)], owesResync := r.isError && s.mode == .run,
                   acc8 := t.acc8, fresh := t.fresh } ∧
      (r.usesSum = false → t.acc8 = s.acc8 ∧ t.fresh = s.fresh) := by
  have hs : ∃ t, feedState b s = some (r, t) := by simp [feedState, h]
  obtain ⟨t, hs⟩ := hs
  obtain ⟨g', hg, ht, hf⟩ := feedState_cases hs
  rw [h] at hg
  cases hg
  exact ⟨t, by simp [feedOp, hs], hs, ht, hf⟩

/-- FD.FEED answers a next state exactly with a feed on the state. -/
theorem feedOp_next {s t : State} {b : Byte} (h : feedOp b s = .next t) : ∃ r, feedState b s = some (r, t) := by
  unfold feedOp at h
  split at h
  · cases h
  · rename_i r u hf
    cases h
    exact ⟨r, hf⟩

end Sys2Proof.Machine
end

