-- ==== Sys2Proof/Laws/Memory.lean ====
section
/-! SUPPORT. The external memory: a changed byte reads back, every other byte reads as before, and the canonical form is kept. -/

namespace Sys2Proof.Machine

/-- In canonical form, an address below every listed one reads as the platform's byte. -/
theorem memRead_below (m : Memory) (a : Nat) (h : ∀ c ∈ m, a < c.1) : memRead m a = Config.platformByte a := by
  induction m with
  | nil => rfl
  | cons c rest ih =>
    obtain ⟨k, v⟩ := c
    have hk : a < k := h (k, v) (by simp)
    simp only [memRead]
    rw [if_neg (by omega)]
    exact ih fun d hd => h d (by simp [hd])

/-- A changed byte reads back as written. -/
theorem memRead_memWrite_same (m : Memory) (a : Nat) (b : Byte) (h : m.Pairwise (fun c d => c.1 < d.1)) :
    memRead (memWrite m a b) a = b := by
  induction m with
  | nil => unfold memWrite; split <;> simp_all [memRead]
  | cons c rest ih =>
    obtain ⟨k, v⟩ := c
    obtain ⟨hk, hrest⟩ := List.pairwise_cons.mp h
    unfold memWrite
    split
    · split
      · rename_i hlt hb
        rw [hb]
        refine memRead_below _ a ?_
        intro d hd
        rcases List.mem_cons.mp hd with rfl | hd
        · exact hlt
        · exact lt_trans hlt (hk d hd)
      · simp [memRead]
    · split
      · rename_i heq
        subst heq
        split
        · rename_i hb
          rw [hb]
          exact memRead_below rest a fun d hd => hk d hd
        · simp [memRead]
      · rename_i hne
        simp only [memRead, if_neg (fun e => hne (Eq.symm e))]
        exact ih hrest

/-- Changing one byte leaves every other byte as it was. -/
theorem memRead_memWrite_other (m : Memory) (a x : Nat) (b : Byte) (hx : x ≠ a) :
    memRead (memWrite m a b) x = memRead m x := by
  induction m with
  | nil => unfold memWrite; split <;> simp [memRead, hx.symm]
  | cons c rest ih =>
    obtain ⟨k, v⟩ := c
    unfold memWrite
    split
    · split <;> simp [memRead, hx.symm]
    · split
      · rename_i heq
        subst heq
        split <;> simp [memRead, hx.symm]
      · simp only [memRead, ih]

/-- What a changed memory lists: the changed byte or what was listed before. -/
theorem mem_memWrite (m : Memory) (a : Nat) (b : Byte) (c : Host.Cell) (hc : c ∈ memWrite m a b) :
    c ∈ m ∨ (c = (a, b) ∧ b ≠ Config.platformByte a) := by
  induction m with
  | nil => unfold memWrite at hc; split at hc <;> simp_all
  | cons d rest ih =>
    obtain ⟨k, v⟩ := d
    unfold memWrite at hc
    split at hc
    · split at hc <;> simp_all
      tauto
    · split at hc
      · split at hc <;> simp_all
        tauto
      · rcases List.mem_cons.mp hc with rfl | hc
        · exact .inl (by simp)
        · rcases ih hc with h | h
          · exact .inl (by simp [h])
          · exact .inr h

/-- Changing a byte keeps the canonical form. -/
theorem memWrite_wf (m : Memory) (a : Nat) (b : Byte) (h : Memory.wf m) (ha : a ≤ Config.maxAddr) :
    Memory.wf (memWrite m a b) := by
  refine ⟨?_, fun c hc => ?_⟩
  · obtain ⟨hp, -⟩ := h
    induction m with
    | nil => unfold memWrite; split <;> simp
    | cons d rest ih =>
      obtain ⟨k, v⟩ := d
      obtain ⟨hk, hrest⟩ := List.pairwise_cons.mp hp
      unfold memWrite
      split
      · rename_i hlt
        split
        · exact hp
        · refine List.pairwise_cons.mpr ⟨fun c hc => ?_, hp⟩
          rcases List.mem_cons.mp hc with rfl | hc
          · exact hlt
          · exact lt_trans hlt (hk c hc)
      · split
        · rename_i heq
          subst heq
          split
          · exact hrest
          · exact List.pairwise_cons.mpr ⟨hk, hrest⟩
        · refine List.pairwise_cons.mpr ⟨fun c hc => ?_, ih hrest⟩
          rcases mem_memWrite rest a b c hc with hc | ⟨rfl, -⟩
          · exact hk c hc
          · show k < a
            omega
  · rcases mem_memWrite m a b c hc with hc | ⟨rfl, hb⟩
    · exact h.2 c hc
    · exact ⟨ha, hb⟩

end Sys2Proof.Machine
end

