-- ==== Sys2Proof/Laws/Ops.lean ====
section
/-! SUPPORT. What each shared operation and each input can do, said once. -/

namespace Sys2Proof.Machine

/-- The transmit log after more outputs. -/
theorem txLog_append (s t : State) (os : List Output) (h : t.trace = s.trace ++ os) :
    t.txLog = s.txLog ++ os.filterMap Output.txByte? := by simp [State.txLog, h]

/-- The bytes a transmission appends to the transmit log are exactly its own. -/
theorem txLog_transmit (bs : List Byte) (s : State) : (transmit bs s).txLog = s.txLog ++ bs := by
  have h : (bs.map Output.txByte).filterMap Output.txByte? = bs := by
    induction bs with
    | nil => rfl
    | cons b rest ih => simp [Output.txByte?, ih]
  rw [txLog_append s _ _ (transmit_trace bs s)]
  simp [Output.txByte?, List.filterMap_cons, h]

/-- The resynchronization transmits nothing. -/
theorem txLog_resync (s : State) : (resync s).txLog = s.txLog := by
  rw [txLog_append s _ _ (resync_trace s)]
  simp [Output.txByte?, List.filterMap_cons]

/-- The resynchronization as one update of the state. -/
theorem resync_eq (s : State) :
    resync s = { s with
      frame := s.frame.zeroCounts, mode := .purge, pT := s.params.tIdle, pret := .run, rxen := true,
      link := .disconnected, flash := .locked, trace := s.trace ++ [.sessionReset, .linkReset], quiet := 0, owesResync := false } := by
  have h := resync_trace s
  unfold resync enterPurge linkReset resetFrame forceSession State.emit at *
  simp at h ⊢

/-- Everything a byte can do in RUN. -/
theorem execSyRxbyte_run {s : State} {b : Byte} {o : Host.Outcome State Fault Refusal} (hm : s.mode = .run)
    (h : execSyRxbyte b s = o) :
    (s.frame.complete = true ∧ o = .refused .frameComplete) ∨
    ∃ r t, feedState b s = some (r, t) ∧ o = .next (reactToFeed r t) := by
  subst h
  unfold execSyRxbyte
  rw [hm]
  dsimp only
  split
  · rename_i hn
    exact .inl ⟨(feedState_eq_none_iff b s).mp hn, rfl⟩
  · rename_i r t hs
    exact .inr ⟨r, t, hs, rfl⟩

/-- The first input that is no event, past the events before it. -/
theorem takeHostInput_append (evs : List Input) (i : Input) (rest : List Input) (he : ∀ e ∈ evs, e.isEvent = true)
    (hi : i.isEvent = false) : takeHostInput (evs ++ i :: rest) = some (i, evs ++ rest) := by
  induction evs with
  | nil => simp [takeHostInput, hi]
  | cons e evs ih =>
    have h1 := he e (by simp)
    have h2 := ih fun x hx => he x (by simp [hx])
    simp [takeHostInput, h1, h2]

/-- Only events: nothing for the host to do. -/
theorem takeHostInput_events (evs : List Input) (he : ∀ e ∈ evs, e.isEvent = true) : takeHostInput evs = none := by
  induction evs with
  | nil => rfl
  | cons e evs ih =>
    have h1 := he e (by simp)
    have h2 := ih fun x hx => he x (by simp [hx])
    simp [takeHostInput, h1, h2]

/-- What is taken in HOLD is no event. -/
theorem takeHostInput_isEvent {l rest : List Input} {i : Input} (h : takeHostInput l = some (i, rest)) :
    i.isEvent = false := by
  induction l generalizing rest with
  | nil => cases h
  | cons e l ih =>
    simp only [takeHostInput] at h
    split at h
    · split at h
      · cases h
      · rename_i j others hj
        cases h
        exact ih hj
    · cases h
      simp_all

/-- Taking an input changes the inputs only. -/
theorem fetch_eq {s t : State} {i : Input} (h : fetch s = some (i, t)) :
    t = { s with inputs := t.inputs } ∧ (s.mode = .hold → i.isEvent = false) := by
  unfold fetch at h
  cases hm : s.mode <;> rw [hm] at h <;> dsimp only at h
  · cases hi : s.inputs <;> rw [hi] at h <;> cases h
    exact ⟨rfl, fun e => by cases e⟩
  · cases ht : takeHostInput s.inputs <;> rw [ht] at h <;> cases h
    exact ⟨rfl, fun _ => takeHostInput_isEvent ht⟩
  · cases hi : s.inputs <;> rw [hi] at h <;> cases h
    exact ⟨rfl, fun e => by cases e⟩

/-- A move of the session is one update of its two fields. -/
theorem moveSession_eq (a : SessionAct) (s : State) :
    moveSession a s = { s with link := (moveSession a s).link, flash := (moveSession a s).flash } := by
  cases a
  · rfl
  · unfold moveSession
    dsimp only
    split <;> rfl

@[simp] theorem moveSession_frame (a : SessionAct) (s : State) : (moveSession a s).frame = s.frame := by rw [moveSession_eq]
@[simp] theorem moveSession_mode (a : SessionAct) (s : State) : (moveSession a s).mode = s.mode := by rw [moveSession_eq]
@[simp] theorem moveSession_pT (a : SessionAct) (s : State) : (moveSession a s).pT = s.pT := by rw [moveSession_eq]
@[simp] theorem moveSession_pret (a : SessionAct) (s : State) : (moveSession a s).pret = s.pret := by rw [moveSession_eq]
@[simp] theorem moveSession_rxen (a : SessionAct) (s : State) : (moveSession a s).rxen = s.rxen := by rw [moveSession_eq]
@[simp] theorem moveSession_acc8 (a : SessionAct) (s : State) : (moveSession a s).acc8 = s.acc8 := by rw [moveSession_eq]
@[simp] theorem moveSession_crc (a : SessionAct) (s : State) : (moveSession a s).crc = s.crc := by rw [moveSession_eq]
@[simp] theorem moveSession_params (a : SessionAct) (s : State) : (moveSession a s).params = s.params := by rw [moveSession_eq]
@[simp] theorem moveSession_mem (a : SessionAct) (s : State) : (moveSession a s).mem = s.mem := by rw [moveSession_eq]
@[simp] theorem moveSession_inputs (a : SessionAct) (s : State) : (moveSession a s).inputs = s.inputs := by rw [moveSession_eq]
@[simp] theorem moveSession_trace (a : SessionAct) (s : State) : (moveSession a s).trace = s.trace := by rw [moveSession_eq]
@[simp] theorem moveSession_quiet (a : SessionAct) (s : State) : (moveSession a s).quiet = s.quiet := by rw [moveSession_eq]
@[simp] theorem moveSession_owesResync (a : SessionAct) (s : State) : (moveSession a s).owesResync = s.owesResync := by rw [moveSession_eq]
@[simp] theorem moveSession_fresh (a : SessionAct) (s : State) : (moveSession a s).fresh = s.fresh := by rw [moveSession_eq]

/-- Everything a step can do. -/
theorem step_cases {s u : State} (h : step s = .next u) :
    (fetch s = none ∧ u = s) ∨
    ∃ i t, fetch s = some (i, t) ∧ runInput i t = .next u := by
  unfold step at h
  cases hf : fetch s with
  | none => rw [hf] at h; cases h; exact .inl ⟨rfl, rfl⟩
  | some p => rw [hf] at h; exact .inr ⟨p.1, p.2, rfl, h⟩

/-- Everything an input can do when it answers a next state. -/
theorem runInput_cases {s u : State} {i : Input} (h : runInput i s = .next u) :
    (∃ p j, i = .packet p ∧ decode p = .ok j ∧ exec j s = .next u) ∨
    (∃ r, i = .hostRead r ∧ s.mode = .hold ∧ ∃ v, u = { s with trace := s.trace ++ [.hostRead r v], fresh := u.fresh }) ∨
    (∃ a, i = .session a ∧ s.mode = .hold ∧ u = moveSession a s) ∨
    (∃ a b, i = .platformWrite a b ∧ u = changeMemory a b s) ∨
    (i = .reset ∧ u = resetBlock s) := by
  cases i with
  | packet p =>
    simp only [runInput] at h
    split at h
    · rename_i j hj
      exact .inl ⟨p, j, rfl, hj, h⟩
    · cases h
  | hostRead r =>
    simp only [runInput, hostReadFrame] at h
    split at h
    · cases h
    · rename_i hm
      refine .inr (.inl ⟨r, rfl, by simpa using hm, ?_⟩)
      split at h <;> cases h
      · exact ⟨_, rfl⟩
      · exact ⟨_, rfl⟩
  | session a =>
    simp only [runInput, hostMoveSession] at h
    split at h
    · cases h
    · rename_i hm
      cases h
      exact .inr (.inr (.inl ⟨a, rfl, by simpa using hm, rfl⟩))
  | platformWrite a b => cases h; exact .inr (.inr (.inr (.inl ⟨a, b, rfl, rfl⟩)))
  | reset => cases h; exact .inr (.inr (.inr (.inr ⟨rfl, rfl⟩)))

end Sys2Proof.Machine
end

