-- ==== Sys2Proof/Laws/PerInstr.lean ====
section
/-! SUPPORT. Statements about every operation, one lemma per constructor of `Instr`.

`RoundTrip`: a well-formed operation is read back from its packet. -/

namespace Sys2Proof.Laws

/-- A well-formed operation is what its packet decodes to. -/
def RoundTrip.Statement (i : Instr) : Prop := i.wellFormed = true → decode (encode i) = .ok i

theorem RoundTrip.fmtBad (x : BitVec 6) : RoundTrip.Statement (.fmtBad x) := fun _ => congrArg Except.ok (classify_fmtBad x)
theorem RoundTrip.fmtNLb : RoundTrip.Statement .fmtNLb := fun _ => by decide
theorem RoundTrip.fmtALb (x : Bool) : RoundTrip.Statement (.fmtALb x) := fun _ => congrArg Except.ok (classify_fmtALb x)
theorem RoundTrip.fmtNLif (l : BitVec 6) : RoundTrip.Statement (.fmtNLif l) := fun h =>
  congrArg Except.ok (classify_fmtNLif l (by simpa [Instr.wellFormed] using h))
theorem RoundTrip.fmtALif (x : Bool) (l : BitVec 6) : RoundTrip.Statement (.fmtALif x l) := fun h =>
  congrArg Except.ok (classify_fmtALif x l (by simpa [Instr.wellFormed] using h))
theorem RoundTrip.txhShort (l : BitVec 6) : RoundTrip.Statement (.txhShort l) := fun _ => by
  simp [encode, decode, decodeHeader, shortHeader_top]
theorem RoundTrip.txhLong (l : Byte) : RoundTrip.Statement (.txhLong l) := fun h => by
  have h : 64 ≤ l.toNat := by simpa [Instr.wellFormed] using h
  simp [encode, decode, decodeHeader, h]
theorem RoundTrip.sum8 (s : List Byte) : RoundTrip.Statement (.sum8 s) := fun _ => rfl
theorem RoundTrip.sumc8 (s : List Byte) : RoundTrip.Statement (.sumc8 s) := fun _ => rfl
theorem RoundTrip.vsum8 (s : List Byte) (e : Byte) : RoundTrip.Statement (.vsum8 s e) := fun _ => rfl
theorem RoundTrip.vsumc8 (s : List Byte) (e : Byte) : RoundTrip.Statement (.vsumc8 s e) := fun _ => rfl
theorem RoundTrip.crc16b (s : List Byte) : RoundTrip.Statement (.crc16b s) := fun _ => rfl
theorem RoundTrip.crc16m (a : Addr) (n : Nat) : RoundTrip.Statement (.crc16m a n) := fun _ => rfl
theorem RoundTrip.crc16v (a : Addr) (n : Nat) (e : Half) : RoundTrip.Statement (.crc16v a n e) := fun _ => rfl
theorem RoundTrip.fdReset : RoundTrip.Statement .fdReset := fun _ => rfl
theorem RoundTrip.fdFeed (b : Byte) : RoundTrip.Statement (.fdFeed b) := fun _ => rfl
theorem RoundTrip.feSend (p : List Byte) (n : Nat) : RoundTrip.Statement (.feSend p n) := fun _ => rfl
theorem RoundTrip.syResync : RoundTrip.Statement .syResync := fun _ => rfl
theorem RoundTrip.syPurge (t : Nat) : RoundTrip.Statement (.syPurge t) := fun _ => rfl
theorem RoundTrip.syRelease : RoundTrip.Statement .syRelease := fun _ => rfl
theorem RoundTrip.syReinit (d : Nat) : RoundTrip.Statement (.syReinit d) := fun _ => rfl
theorem RoundTrip.syRxbyte (b : Byte) : RoundTrip.Statement (.syRxbyte b) := fun _ => rfl
theorem RoundTrip.syRxerr (k : LinkError) : RoundTrip.Statement (.syRxerr k) := fun _ => rfl
theorem RoundTrip.syQuiet (d : Nat) : RoundTrip.Statement (.syQuiet d) := fun _ => rfl

end Sys2Proof.Laws
end

