-- ==== Sys2Proof/Tests/Slice0.lean ====
section
/-! SUPPORT. The model's own tests, expected values from spec/95_test_vectors.md or by hand from the rule named, and the witnesses: for every statement with
hypotheses a concrete state and operands that meet all of them together. -/

namespace Sys2Proof.Tests

open Sys2Proof Sys2Proof.Machine

/-! ## Helpers -/

/-- The state an outcome goes on with. -/
def after : Host.Outcome State Fault Refusal → Option State
  | .next t => some t
  | _ => none

/-- The reason of a refusal. -/
def refusal : Host.Outcome State Fault Refusal → Option Refusal
  | .refused r => some r
  | _ => none

/-- What the ports have put out after an outcome. -/
def traceAfter (o : Host.Outcome State Fault Refusal) : Option (List Output) := (after o).map State.trace

/-- The four counts of a frame. -/
def counts (f : Frame) : Nat × Nat × Nat × Nat := (f.hlenExp.toNat, f.dlenExp.toNat, f.hrx.toNat, f.drx.toNat)

/-- The reset frame after these bytes. -/
def fed (w : List Byte) : Frame :=
  match feedAll w Frame.reset with
  | some (_, f, _) => f
  | none => Frame.reset

/-- The reset state in RUN after these bytes. -/
def runAt (w : List Byte) : State := { State.reset with frame := fed w }

/-- The frame of spec/95_test_vectors.md S1. -/
def goodFrame : List Byte := [0x03#8, 0xC1#8, 0x67#8, 0x8F#8, 0xBA#8]

/-- The host holds a good frame. -/
def held : State := { State.reset with frame := fed goodFrame, mode := .hold }

/-- A purge after an error. -/
def purging : State := { State.reset with mode := .purge }

/-- RUN with a decoder error still owed its resynchronization. -/
def owing : State := { runAt [0x80#8] with owesResync := true }

/-- The same state with inputs. -/
def given (s : State) (is : List Input) : State := { s with inputs := is }

/-- The bytes `31` to `39`. -/
def digits : List Byte := [0x31#8, 0x32#8, 0x33#8, 0x34#8, 0x35#8, 0x36#8, 0x37#8, 0x38#8, 0x39#8]

/-- The outcome and the count of a decoding from the reset frame. -/
def decoded (w : List Byte) : Option (FeedResult × Nat) := (decodeFrame w Frame.reset).map fun x => (x.1, x.2.2)

/-- A decoding whose outcome and count are known ends in some frame. -/
theorem decoded_frame {w : List Byte} {r : FeedResult} {n : Nat} (h : decoded w = some (r, n)) :
    ∃ g, decodeFrame w Frame.reset = some (r, g, n) := by
  unfold decoded at h
  cases hd : decodeFrame w Frame.reset with
  | none => simp [hd] at h
  | some x => obtain ⟨r', g, n'⟩ := x; simp [hd] at h; exact ⟨g, by rw [h.1, h.2]⟩

/-- An outcome that goes on goes on to some state. -/
theorem next_of_after {o : Host.Outcome State Fault Refusal} (h : (after o).isSome = true) : ∃ t, o = .next t := by
  cases o with
  | next t => exact ⟨t, rfl⟩
  | fault r => cases h
  | refused r => cases h

/-! ## Well-formedness: an ill-formed term for each check -/

theorem test_wellFormed_fmtNLif_zero : Instr.wellFormed (.fmtNLif 0#6) = false := by decide
theorem test_wellFormed_fmtALif_zero : Instr.wellFormed (.fmtALif true 0#6) = false := by decide
theorem test_wellFormed_txhLong_short : Instr.wellFormed (.txhLong 0x3F#8) = false := by decide
theorem test_wellFormed_bounds : Instr.wellFormed (.fmtNLif 0x3F#6) = true ∧ Instr.wellFormed (.fmtALif false 1#6) = true ∧
    Instr.wellFormed (.txhLong 0x40#8) = true := by decide

/-! ## Decoding: a word written out bit by bit for each row (spec/30_encoding.md R78, R80, R83, R84) -/

theorem test_decode_fmtBad : decode (.wireRx 0b01111111#8) = .ok (.fmtBad 0b111111#6) := by rfl
theorem test_decode_fmtNLb : decode (.wireRx 0b00000000#8) = .ok .fmtNLb := by rfl
theorem test_decode_fmtALb : decode (.wireRx 0b10000000#8) = .ok (.fmtALb false) := by rfl
theorem test_decode_fmtNLif : decode (.wireRx 0b00111111#8) = .ok (.fmtNLif 0b111111#6) := by rfl
theorem test_decode_fmtALif : decode (.wireRx 0b11000001#8) = .ok (.fmtALif true 0b000001#6) := by rfl
theorem test_decode_txhShort : decode (.wireTx [0b00111111#8]) = .ok (.txhShort 0b111111#6) := by rfl
theorem test_decode_txhLong : decode (.wireTx [0b00000000#8, 0b11111111#8]) = .ok (.txhLong 0xFF#8) := by rfl
theorem test_decode_sum8 : decode (.cmd 0b00000001#8 [.bytes [0xFF#8]]) = .ok (.sum8 [0xFF#8]) := by rfl
theorem test_decode_sumc8 : decode (.cmd 0b00000010#8 [.bytes []]) = .ok (.sumc8 []) := by rfl
theorem test_decode_vsum8 : decode (.cmd 0b00000011#8 [.bytes [0x01#8], .byte 0x02#8]) = .ok (.vsum8 [0x01#8] 0x02#8) := by rfl
theorem test_decode_vsumc8 : decode (.cmd 0b00000100#8 [.bytes [], .byte 0x02#8]) = .ok (.vsumc8 [] 0x02#8) := by rfl
theorem test_decode_crc16b : decode (.cmd 0b00001000#8 [.bytes [0x31#8]]) = .ok (.crc16b [0x31#8]) := by rfl
theorem test_decode_crc16m : decode (.cmd 0b00001001#8 [.addr 0x1000#32, .nat 4]) = .ok (.crc16m 0x1000#32 4) := by rfl
theorem test_decode_crc16v : decode (.cmd 0b00001010#8 [.addr 0x100#32, .nat 256, .half 0xEF89#16]) =
    .ok (.crc16v 0x100#32 256 0xEF89#16) := by rfl
theorem test_decode_fdReset : decode (.cmd 0b00010000#8 []) = .ok .fdReset := by rfl
theorem test_decode_fdFeed : decode (.cmd 0b00010001#8 [.byte 0x40#8]) = .ok (.fdFeed 0x40#8) := by rfl
theorem test_decode_feSend : decode (.cmd 0b00011000#8 [.bytes [0x7E#8], .nat 1]) = .ok (.feSend [0x7E#8] 1) := by rfl
theorem test_decode_syResync : decode (.cmd 0b00100000#8 []) = .ok .syResync := by rfl
theorem test_decode_syPurge : decode (.cmd 0b00100001#8 [.nat 10]) = .ok (.syPurge 10) := by rfl
theorem test_decode_syRelease : decode (.cmd 0b00100010#8 []) = .ok .syRelease := by rfl
theorem test_decode_syReinit : decode (.cmd 0b00100011#8 [.nat 8]) = .ok (.syReinit 8) := by rfl
theorem test_decode_syRxbyte : decode (.event 0b00#2 [.byte 0x55#8]) = .ok (.syRxbyte 0x55#8) := by rfl
theorem test_decode_syRxerr : decode (.event 0b01#2 [.kind .framing]) = .ok (.syRxerr .framing) := by rfl
theorem test_decode_syQuiet : decode (.event 0b10#2 [.nat 9]) = .ok (.syQuiet 9) := by rfl

theorem test_decode_undefined_selector : decode (.cmd 0x05#8 []) = .error .undefinedSelector := by rfl
theorem test_decode_undefined_tag : decode (.event 3#2 [.nat 0]) = .error .undefinedTag := by rfl
theorem test_decode_wrong_operands : decode (.cmd 0x01#8 [.nat 3]) = .error .operandShape := by rfl
theorem test_decode_undefined_header : decode (.wireTx [0x40#8]) = .error .undefinedHeader ∧
    decode (.wireTx [0x00#8, 0x3F#8]) = .error .undefinedHeader := ⟨rfl, rfl⟩

/-! ## Words of the opcode table, and the step that runs one right after reset -/

theorem test_word_commands : decodeTableWord 8 0x0A = some (.crc16v 0#32 0 0#16) ∧ decodeTableWord 8 0x22 = some .syRelease := by
  decide
theorem test_word_first_bytes : decodeTableWord 8 0x40 = some (.fmtBad 0#6) ∧ decodeTableWord 8 0x00 = some .fmtNLb ∧
    decodeTableWord 8 0x80 = some (.fmtALb false) ∧ decodeTableWord 8 0x3F = some (.fmtNLif 63#6) := by decide
theorem test_word_events : decodeTableWord 2 2 = some (.syQuiet 0) ∧ decodeTableWord 2 3 = none := by decide
theorem test_word_long_header : decodeTableWord 16 0x0040 = some (.txhLong 0x40#8) ∧ decodeTableWord 16 0x4000 = none := by decide
theorem test_step_runs_word : (after (step (State.reset.withFetchWord 8 0x80))).map (fun t => counts t.frame) =
    some (4, 0, 1, 0) := by decide +kernel
theorem test_step_runs_event_word : (after (step (held.withFetchWord 2 0))).isSome = false := by decide +kernel

/-! ## The meanings -/

theorem test_sum8 : traceAfter (exec (.sum8 [0x03#8, 0xC1#8, 0x67#8, 0x8F#8]) State.reset) = some [.result (.byte 0xBA#8)] := by
  decide
theorem test_sumc8 : traceAfter (exec (.sumc8 [0x03#8, 0xC1#8, 0x67#8, 0x8F#8]) State.reset) = some [.result (.byte 0xBB#8)] := by
  decide
theorem test_sumc8_multiple_of_255 : sumc8 [0xFF#8, 0xFF#8] = 0xFF#8 ∧ sumc8 [0x12#8, 0x34#8, 0x56#8, 0x78#8, 0x9A#8, 0xBC#8, 0xDE#8, 0xF0#8] = 0x3C#8 := by
  decide
theorem test_vsum8 : traceAfter (exec (.vsum8 [0x03#8, 0xC1#8, 0x67#8, 0x8F#8] 0xBA#8) State.reset) = some [.result (.bool true)] := by
  decide
theorem test_vsum8_mismatch : traceAfter (exec (.vsum8 [0x03#8, 0xC1#8, 0x67#8, 0x8F#8] 0xBB#8) State.reset) =
    some [.result (.bool false)] := by decide
theorem test_vsumc8 : traceAfter (exec (.vsumc8 [0x03#8, 0xC1#8, 0x67#8, 0x8F#8] 0xBB#8) State.reset) = some [.result (.bool true)] := by
  decide
theorem test_vsumc8_mismatch : traceAfter (exec (.vsumc8 [0xFF#8] 0x00#8) State.reset) = some [.result (.bool false)] := by decide
theorem test_crc16b : traceAfter (exec (.crc16b digits) State.reset) = some [.result (.half 0x29B1#16)] := by decide +kernel
/-- The other presets of R129, in the order XMODEM, KERMIT, X-25. -/
theorem test_crc16_presets :
    crc16 { Params.default with crcInit := 0x0000#16 } digits = 0x31C3#16 ∧
    crc16 { Params.default with crcInit := 0x0000#16, crcRefin := true, crcRefout := true } digits = 0x2189#16 ∧
    crc16 { Params.default with crcRefin := true, crcRefout := true, crcXorout := 0xFFFF#16 } digits = 0x906E#16 := by decide +kernel

/-- Four bytes of the example memory of section 2.2. -/
def withMemory : State := { State.reset with mem := [(0x1000, 0x10#8), (0x1001, 0x11#8), (0x1002, 0x12#8), (0x1003, 0x13#8)] }

theorem test_crc16m : traceAfter (exec (.crc16m 0x1000#32 4) withMemory) =
    some [.memRead 0x1000#32, .memRead 0x1001#32, .memRead 0x1002#32, .memRead 0x1003#32, .result (.half 0xAC77#16)] := by decide +kernel
theorem test_crc16m_wraps : refusal (exec (.crc16m 0xFFFFFFFF#32 2) withMemory) = some .rangeWraps := by decide +kernel
theorem test_crc16v : (traceAfter (exec (.crc16v 0x1000#32 4 0xAC77#16) withMemory)).map List.getLast? =
    some (some (.result (.bool true))) := by decide +kernel
theorem test_crc16v_empty : traceAfter (exec (.crc16v 0x12345678#32 0 0xFFFF#16) withMemory) = some [.result (.bool true)] := by
  decide +kernel

theorem test_fdReset : (after (exec .fdReset held)).map (fun t => (counts t.frame, t.frame.hbuf[0], t.frame.pbuf[3])) =
    some ((0, 0, 0, 0), 0x03#8, 0xBA#8) := by decide +kernel
theorem test_fdFeed_last : (after (exec (.fdFeed 0xBA#8) (runAt [0x03#8, 0xC1#8, 0x67#8, 0x8F#8]))).map (fun t => (counts t.frame, t.trace)) =
    some ((1, 3, 1, 4), [.result (.feed .done)]) := by decide +kernel
theorem test_fdFeed_complete : refusal (exec (.fdFeed 0x03#8) held) = some .frameComplete := by decide +kernel
theorem test_fmtBad : (after (exec (.fmtBad 0#6) State.reset)).map (fun t => (counts t.frame, t.trace)) =
    some ((0, 0, 0, 0), [.result (.feed (.error .eFmt))]) := by decide +kernel
theorem test_fmtNLb : (after (exec .fmtNLb State.reset)).map (fun t => (counts t.frame, t.trace)) =
    some ((2, 0, 1, 0), [.result (.feed .needMore)]) := by decide +kernel
theorem test_fmtALb : (after (exec (.fmtALb true) State.reset)).map (fun t => (counts t.frame, t.frame.hbuf.toList)) =
    some ((4, 0, 1, 0), [0xC0#8, 0#8, 0#8, 0#8]) := by decide +kernel
theorem test_fmtNLif : (after (exec (.fmtNLif 63#6) State.reset)).map (fun t => counts t.frame) = some (1, 63, 1, 0) := by decide +kernel
theorem test_fmtALif : (after (exec (.fmtALif false 1#6) State.reset)).map (fun t => counts t.frame) = some (3, 1, 1, 0) := by decide +kernel
/-- Rows of section 2.3: an explicit length, an address, one byte short, a wrong checksum. -/
theorem test_decode_frames : decoded [0x00#8, 0x01#8, 0x3E#8, 0x3F#8] = some (.done, 4) ∧
    decoded [0x80#8, 0x10#8, 0xF1#8, 0x02#8, 0x21#8, 0x01#8, 0xA5#8] = some (.done, 7) ∧
    decoded [0x01#8, 0x3E#8] = some (.needMore, 2) ∧ decoded [0x00#8, 0x00#8, 0x01#8] = some (.error .eCks, 3) := by decide +kernel

theorem test_feSend : traceAfter (exec (.feSend [0xC1#8, 0x67#8, 0x8F#8] 3) held) =
    some [.rxen false, .txByte 0x03#8, .txByte 0xC1#8, .txByte 0x67#8, .txByte 0x8F#8, .txByte 0xBA#8, .awaitLastBit, .rxen true] := by
  decide +kernel
/-- Section 2.4: 300 bytes are cut to 255. -/
theorem test_feSend_clamped : (after (exec (.feSend (List.replicate 300 0x55#8) 300) held)).map State.txLog =
    some (0x00#8 :: 0xFF#8 :: List.replicate 255 0x55#8 ++ [0xAA#8]) := by decide +kernel
theorem test_txhShort : (after (exec (.txhShort 3#6) held)).map State.txLog = some [0x03#8] := by decide +kernel
theorem test_txhLong : (after (exec (.txhLong 0x40#8) held)).map State.txLog = some [0x00#8, 0x40#8] := by decide +kernel
theorem test_txhLong_short : refusal (exec (.txhLong 0x3F#8) held) = some .shortLengthInLongHeader := by decide +kernel

theorem test_syRxbyte_done : (after (exec (.syRxbyte 0x3F#8) (runAt [0x01#8, 0x3E#8]))).map (fun t => (t.mode, t.trace, t.frame.pbuf[0])) =
    some (.hold, [.result (.feed .done), .frameDone], 0x3E#8) := by decide +kernel
theorem test_syRxbyte_error : (after (exec (.syRxbyte 0x41#8) State.reset)).map (fun t => (t.mode, t.pT, t.pret, t.trace)) =
    some (.purge, 10, .run, [.result (.feed (.error .eFmt)), .sessionReset, .linkReset]) := by decide +kernel
theorem test_syRxerr : (after (exec (.syRxerr .overrun) { runAt [0x80#8] with link := .connected, flash := .unlocked })).map
    (fun t => (t.mode, counts t.frame, t.link, t.flash)) = some (.purge, (0, 0, 0, 0), .disconnected, .locked) := by decide +kernel
theorem test_syRxerr_purge : traceAfter (exec (.syRxerr .framing) purging) = some [.linkReset] := by decide +kernel
/-- One Quiet of the period, and the last of two adjacent ones that make it up (R176). -/
theorem test_syQuiet_end : (after (exec (.syQuiet 10) purging)).map State.mode = some .run ∧
    (after (exec (.syQuiet 6) { purging with quiet := 6 })).map State.mode = some .run := by decide +kernel
theorem test_syQuiet_short : (after (exec (.syQuiet 9) purging)).map (fun t => (t.mode, t.quiet)) = some (.purge, 9) := by decide +kernel
theorem test_syPurge : (after (exec (.syPurge 12) held)).map (fun t => (t.mode, t.pT, t.pret, t.frame.drx.toNat)) =
    some (.purge, 12, .hold, 4) := by decide +kernel
theorem test_syPurge_run : refusal (exec (.syPurge 10) State.reset) = some .purgeOutsideHold := by decide +kernel
theorem test_syRelease : (after (exec .syRelease held)).map (fun t => (t.mode, counts t.frame)) = some (.run, (0, 0, 0, 0)) := by decide +kernel
theorem test_syRelease_run : refusal (exec .syRelease State.reset) = some .releaseOutsideHold := by decide +kernel
theorem test_syReinit : traceAfter (exec (.syReinit 8) held) = some [.linkReinit 8] := by decide +kernel
theorem test_syReinit_run : refusal (exec (.syReinit 8) State.reset) = some .reinitOutsideHold := by decide +kernel
theorem test_syResync : (after (exec .syResync owing)).map (fun t => (t.mode, counts t.frame, t.trace)) =
    some (.purge, (0, 0, 0, 0), [.sessionReset, .linkReset]) := by decide +kernel

theorem test_syResync_refused : refusal (exec .syResync held) = some .resyncOutsideRun ∧
    refusal (exec .syResync State.reset) = some .resyncWithoutError := by decide +kernel

theorem test_hostRead : traceAfter (runInput (.hostRead (.pbuf 0)) held) = some [.hostRead (.pbuf 0) 0xC1] := by decide +kernel
theorem test_hostSession : (after (runInput (.session .startCommunication) held)).map State.link = some .connected := by decide +kernel
theorem test_platformWrite : (after (runInput (.platformWrite 0x1002#32 0x77#8) withMemory)).map (fun t => memRead t.mem 0x1001) = some 0x11#8 := by
  rfl
theorem test_reset : (after (runInput .reset held)).map (fun t => (t.mode, counts t.frame)) = some (.run, (0, 0, 0, 0)) := by decide +kernel

/-! The host context (spec/45_host_context.md): the sign extension of section 1, and the key of an unprotect. -/

theorem test_address24 : address24 0x7F#8 0xFF#8 0xFF#8 = 0x007FFFFF#32 ∧ address24 0xFF#8 0x80#8 0x00#8 = 0xFFFF8000#32 := by decide
/-- The frame of a ROM CRC verify request (R234), chunk index 1, in 12 data bytes. -/
def crcRequest : Frame :=
  fed [0x0C#8, 0x31#8, 0x00#8, 0x00#8, 0x01#8, 0xEF#8, 0x89#8, 0x8F#8, 0xF4#8, 0x5F#8, 0xC0#8, 0x00#8, 0x00#8]
theorem test_crcVerify : crcVerifyLegal crcRequest = true ∧
    (crcVerifyOperation Params.default crcRequest 1).toOption = some (.crc16v 0x200#32 256 0x8FF4#16) := by decide +kernel
theorem test_crcVerify_above : (crcVerifyOperation { Params.default with crcChunkSize := 0x80000000 } crcRequest 1).toOption = none := by
  decide +kernel
/-- Scenario S1 of section 1, and the last identifier whose response byte fits. -/
theorem test_positiveResponse : positiveResponse startCommunicationSid [0x67#8, 0x8F#8] = startCommunicationAnswer ∧
    positiveResponseByte 0xBF#8 = 0xFF#8 := by decide
theorem test_bulkFrames : bulkFrames 3 = 3 := by decide

/-! ## Witnesses -/

theorem witness_WellFormedOperationDecodesFromItsPacket :
    Instr.wellFormed (.fmtALif true 63#6) = true ∧ Instr.wellFormed (.txhLong 64#8) = true := by decide
theorem witness_DecodedPacketIsItsOperationsEncoding : decode (.wireRx 0xC5#8) = .ok (.fmtALif true 5#6) := by rfl
/-- Every row of the table at both ends of its range. -/
theorem witness_FirstByteTable :
    (0x01 ≤ (0x01#8).toNat ∧ (0x3F#8).toNat ≤ 0x3F) ∧ (0x40 ≤ (0x40#8).toNat ∧ (0x7F#8).toNat ≤ 0x7F) ∧
    (0x81 ≤ (0x81#8).toNat ∧ (0xBF#8).toNat ≤ 0xBF) ∧ 0xC1 ≤ (0xC1#8).toNat ∧
    classify 0x3F#8 = .fmtNLif 63#6 ∧ classify 0x40#8 = .fmtBad 0#6 ∧ classify 0x7F#8 = .fmtBad 63#6 ∧ classify 0x80#8 = .fmtALb false ∧
    classify 0xBF#8 = .fmtALif false 63#6 ∧ classify 0xC0#8 = .fmtALb true ∧ classify 0xC1#8 = .fmtALif true 1#6 ∧
    classify 0xFF#8 = .fmtALif true 63#6 ∧ headerLength 0x80#8 = 4 ∧ headerLength 0xBF#8 = 3 ∧ headerLength 0xC0#8 = 4 := by decide
theorem witness_StepRunsTheDecodedOperation_run :
    let s := given State.reset [.packet (.cmd 0x10#8 []), .reset]
    s.mode ≠ .hold ∧ s.inputs = .packet (.cmd 0x10#8 []) :: [.reset] ∧ decode (.cmd 0x10#8 []) = .ok .fdReset := by
  exact ⟨by decide, rfl, rfl⟩
theorem witness_StepRunsTheDecodedOperation_hold :
    let e : List Input := [.packet (.event 2#2 [.nat 4])]
    let s := given held (e ++ .packet (.cmd 0x22#8 []) :: [.reset])
    s.mode = .hold ∧ (∀ x ∈ e, x.isEvent = true) ∧ Input.isEvent (.packet (.cmd 0x22#8 [])) = false ∧
      s.inputs = e ++ .packet (.cmd 0x22#8 []) :: [.reset] ∧ decode (.cmd 0x22#8 []) = .ok .syRelease := by
  exact ⟨rfl, by decide, rfl, rfl, rfl⟩
theorem witness_StepRunsTheDecodedOperation_act :
    let e : List Input := [.packet (.event 2#2 [.nat 4])]
    let s := given held (e ++ .session .startCommunication :: [])
    s.mode = .hold ∧ (∀ x ∈ e, x.isEvent = true) ∧ Input.isEvent (.session .startCommunication) = false ∧
      s.inputs = e ++ .session .startCommunication :: [] ∧
      (given State.reset [.reset]).mode ≠ .hold ∧ (given State.reset [.reset]).inputs = .reset :: [] := by
  exact ⟨rfl, by decide, rfl, rfl, by decide, rfl⟩
theorem witness_UndecodablePacketIsRefused_hold :
    let e : List Input := [.packet (.event 2#2 [.nat 4])]
    let s := given held (e ++ .packet (.cmd 0x00#8 []) :: [])
    s.mode = .hold ∧ (∀ x ∈ e, x.isEvent = true) ∧ Input.isEvent (.packet (.cmd 0x00#8 [])) = false ∧
      s.inputs = e ++ .packet (.cmd 0x00#8 []) :: [] ∧ decode (.cmd 0x00#8 []) = .error .undefinedSelector := by
  exact ⟨rfl, by decide, rfl, rfl, rfl⟩
theorem witness_UndecodablePacketIsRefused :
    let s := given State.reset [.packet (.cmd 0x00#8 [])]
    s.mode ≠ .hold ∧ s.inputs = .packet (.cmd 0x00#8 []) :: [] ∧ decode (.cmd 0x00#8 []) = .error .undefinedSelector := by
  exact ⟨by decide, rfl, rfl⟩
theorem witness_NothingTakenNothingChanges :
    State.reset.inputs = [] ∧ (given held [.packet (.event 2#2 [.nat 4])]).mode = .hold ∧
      (∀ e ∈ (given held [.packet (.event 2#2 [.nat 4])]).inputs, e.isEvent = true) ∧ ∃ d, Instr.syQuiet 4 = .syQuiet d := by
  exact ⟨rfl, rfl, by decide, 4, rfl⟩
theorem witness_Sumc8GivesTheSumModulo255 : (∀ b ∈ ([0#8, 0#8] : List Byte), b = 0#8) ∧ ∃ b ∈ ([0xFF#8, 0#8] : List Byte), b ≠ 0#8 := by decide
theorem witness_SumsIgnoreTheOrder : List.Perm ([1#8, 2#8] : List Byte) [2#8, 1#8] := by decide
theorem witness_OneChangedByteInTheSums : (0x00#8 : Byte) ≠ 0xFF#8 ∧ ∃ b ∈ ([] ++ [0x01#8] : List Byte), b ≠ 0#8 := by decide
theorem witness_SumsAgreeBelow256 : (([0xFF#8] : List Byte).map BitVec.toNat).sum = 255 ∧
    (([0xFF#8, 0x01#8] : List Byte).map BitVec.toNat).sum = 256 ∧ ((List.replicate 256 0xFF#8 : List Byte).map BitVec.toNat).sum = 65280 := by
  decide +kernel
/-- The values at which R103 d fails (log entry 21). -/
theorem test_sums_agree_above_256 :
    sum8 (0x01#8 :: List.replicate 256 0xFF#8) = 0x01#8 ∧ sumc8 (0x01#8 :: List.replicate 256 0xFF#8) = 0x01#8 := by decide +kernel
/-- The last range that does not wrap, the first that does, and the empty range. -/
theorem witness_Crc16OverMemory : (0xFFFFFFFE#32 : Addr).toNat + 2 - 1 ≤ 0xFFFFFFFF ∧
    (2 ≠ 0 ∧ 0xFFFFFFFF < (0xFFFFFFFF#32 : Addr).toNat + 2 - 1) ∧ (0 = 0 ∨ (0xFFFFFFFF#32 : Addr).toNat + 0 - 1 ≤ 0xFFFFFFFF) := by decide
theorem witness_Crc16Comparator : (0xFFFFFFFF#32 : Addr).toNat + 1 - 1 ≤ 0xFFFFFFFF ∧
    (3 ≠ 0 ∧ 0xFFFFFFFF < (0xFFFFFFFE#32 : Addr).toNat + 3 - 1) := by decide
theorem witness_CrcResidueIsZero : Params.default.crcRefin = false ∧ Params.default.crcRefout = false ∧ Params.default.crcXorout = 0#16 := by decide
theorem witness_CrcIsLinear : Params.default.crcRefin = false ∧ Params.default.crcRefout = false ∧ Params.default.crcXorout = 0#16 ∧
    ([0x41#8] : List Byte).length = ([0xFF#8] : List Byte).length := by decide
theorem witness_CrcDetectsTwoChangedBytes : ¬ ((0x41#8 : Byte) = 0x41#8 ∧ (0xFF#8 : Byte) = 0x00#8) := by decide
theorem witness_FeedRefusedExactlyWhenComplete : held.frame.complete = true ∧ State.reset.frame.complete = false := by decide +kernel
theorem witness_AcceptedFirstByteStartsTheFrame : State.reset.frame.hrx = 0#3 ∧ addressing 0x80#8 ≠ 0b01#2 ∧ addressing 0x3F#8 ≠ 0b01#2 := by
  decide +kernel
theorem witness_FirstByteClassesAtTheFirstByte : State.reset.frame.hrx = 0#3 ∧ (1#6 : BitVec 6) ≠ 0#6 ∧ (63#6 : BitVec 6) ≠ 0#6 := by decide +kernel

/-- A frame whose counts keep the invariant. -/
theorem inv_of_counts {f : Frame} (h1 : f.hlenExp.toNat ≤ 4) (h2 : f.hrx.toNat ≤ f.hlenExp.toNat) (h3 : f.drx.toNat ≤ f.dlenExp.toNat + 1)
    (h4 : f.hrx = f.hlenExp ∨ f.drx = 0#9) (h5 : f.hrx ≠ 0#3 ∨ f.hlenExp = 0#3 ∧ f.dlenExp = 0#8 ∧ f.drx = 0#9) : f.Inv := by
  refine ⟨h1, h2, h3, fun hd => ?_, fun h0 => h5.resolve_left (fun h => h h0)⟩
  have hn : f.drx ≠ 0#9 := fun e => by simp [e] at hd
  rcases h5 with h5 | h5
  · have he := h4.resolve_right hn
    refine ⟨he, Nat.pos_of_ne_zero fun hz => h5 (he.trans ?_)⟩
    exact BitVec.eq_of_toNat_eq hz
  · exact absurd h5.2.2 hn


/-- A header byte that is not the last, and one that is the length. -/
theorem witness_HeaderByteAccumulates :
    ((runAt [0x80#8]).frame.Inv ∧ 0 < (runAt [0x80#8]).frame.hrx.toNat ∧
      (runAt [0x80#8]).frame.hrx.toNat < (runAt [0x80#8]).frame.hlenExp.toNat) ∧
    ((runAt [0x00#8]).frame.Inv ∧ 0 < (runAt [0x00#8]).frame.hrx.toNat ∧
      (runAt [0x00#8]).frame.hrx.toNat + 1 = (runAt [0x00#8]).frame.hlenExp.toNat) := by
  refine ⟨⟨?_, by decide +kernel, by decide +kernel⟩, ⟨?_, by decide +kernel, by decide +kernel⟩⟩ <;>
    (apply inv_of_counts <;> decide +kernel)
theorem witness_DataByteAccumulates :
    let f := (runAt [0x02#8, 0x1A#8]).frame
    f.Inv ∧ 0 < f.hrx.toNat ∧ f.hrx = f.hlenExp ∧ f.drx.toNat < f.dlenExp.toNat := by
  refine ⟨?_, by decide +kernel, by decide +kernel, by decide +kernel⟩
  apply inv_of_counts <;> decide +kernel
/-- The frame of one data byte, and the empty frame. -/
theorem witness_LastByteIsCheckedAgainstTheSum :
    (let f := (runAt [0x01#8, 0x3E#8]).frame
     f.Inv ∧ 0 < f.hrx.toNat ∧ f.hrx = f.hlenExp ∧ f.drx.toNat = f.dlenExp.toNat) ∧
    (let f := (runAt [0x00#8, 0x00#8]).frame
     f.Inv ∧ 0 < f.hrx.toNat ∧ f.hrx = f.hlenExp ∧ f.drx.toNat = f.dlenExp.toNat) := by
  refine ⟨⟨?_, by decide +kernel, by decide +kernel, by decide +kernel⟩, ⟨?_, by decide +kernel, by decide +kernel, by decide +kernel⟩⟩ <;>
    (apply inv_of_counts <;> decide +kernel)
theorem witness_StepKeepsTheFrameInvariant :
    let s := given (runAt [0x01#8, 0x3E#8]) [.packet (.event 0#2 [.byte 0x3F#8])]
    s.frame.Inv ∧ ∃ t, step s = .next t := by
  refine ⟨?_, next_of_after (by decide +kernel)⟩
  apply inv_of_counts <;> decide +kernel
theorem witness_DecodedFrameHoldsTheBytesItTook :
    (∃ g, decodeFrame (goodFrame ++ [0x03#8]) Frame.reset = some (.done, g, 5)) ∧
    ∃ g, decodeFrame [0x00#8, 0x00#8, 0x01#8] Frame.reset = some (.error .eCks, g, 3) :=
  ⟨decoded_frame (by decide +kernel), decoded_frame (by decide +kernel)⟩
theorem witness_DecodeIsNeverRefused : decoded [0x01#8, 0x3E#8] = some (.needMore, 2) := by decide +kernel
theorem witness_EncodedPayloadDecodes :
    (1 ≤ ([0x7E#8] : List Byte).length ∧ ([0x7E#8] : List Byte).length ≤ 255) ∧ (List.replicate 255 0x55#8).length ≤ 255 ∧
    decoded (encodeFrame [0x7E#8] 1) = some (.done, 3) := by decide +kernel
theorem witness_CorruptedFrameIsRejected :
    (∃ g, decodeFrame (0x03#8 :: [0xC1#8, 0x67#8, 0x8F#8] ++ [0xBA#8]) Frame.reset = some (.done, g, 5)) ∧
    (0xBB#8 : Byte) ≠ 0xBA#8 ∧ ([0xC1#8, 0x67#8, 0x8F#8] : List Byte) = [0xC1#8] ++ 0x67#8 :: [0x8F#8] ∧ (0x66#8 : Byte) ≠ 0x67#8 ∧
    ¬ (lengthInFormat 0x03#8 = 0#6 ∧ ([0xC1#8] : List Byte).length + 2 = headerLength 0x03#8) :=
  ⟨decoded_frame (by decide +kernel), by decide, rfl, by decide, by decide⟩
/-- A length-in-format of zero, with the changed byte beside the length byte. -/
theorem witness_CorruptedFrameIsRejected_explicit_length :
    (∃ g, decodeFrame (0x00#8 :: [0x01#8, 0x3E#8] ++ [0x3F#8]) Frame.reset = some (.done, g, 4)) ∧
    ([0x01#8, 0x3E#8] : List Byte) = [0x01#8] ++ 0x3E#8 :: [] ∧ (0x3F#8 : Byte) ≠ 0x3E#8 ∧
    ¬ (lengthInFormat 0x00#8 = 0#6 ∧ ([0x01#8] : List Byte).length + 2 = headerLength 0x00#8) :=
  ⟨decoded_frame (by decide +kernel), rfl, by decide, by decide⟩
/-- A format byte changed where the lengths stay: `81 10 FC 81 0E` with `C1`. -/
theorem witness_CorruptedFrameIsRejected_format_byte :
    (∃ g, decodeFrame (0x81#8 :: [0x10#8, 0xFC#8, 0x81#8] ++ [0x0E#8]) Frame.reset = some (.done, g, 5)) ∧ (0xC1#8 : Byte) ≠ 0x81#8 ∧
    badFormat 0xC1#8 = false ∧ headerLength 0xC1#8 = headerLength 0x81#8 ∧ lengthInFormat 0xC1#8 = lengthInFormat 0x81#8 :=
  ⟨decoded_frame (by decide +kernel), by decide, by decide, by decide, by decide⟩
theorem witness_SendPutsTheFrameOnTheWire : held.mode = .hold ∧ min 0 255 ≤ ([] : List Byte).length ∧
    min 300 255 ≤ (List.replicate 255 0x55#8).length := by decide +kernel
theorem witness_SendRefusals : State.reset.mode ≠ .hold ∧ held.mode = .hold ∧ ([0xC1#8, 0x67#8] : List Byte).length < min 3 255 := by decide +kernel
theorem witness_EncodedHeaderClassifiesTheLength : (63 ≤ 63 ∧ 64 ≤ 64) ∧ (encodeFrame (List.replicate 63 0xAA#8) 63)[0]? = some 0x3F#8 ∧
    (encodeFrame (List.replicate 64 0xAA#8) 64)[1]? = some 0x40#8 := by decide +kernel
theorem witness_TransmitHeadersGoOnTheWire : held.mode = .hold ∧ State.reset.mode ≠ .hold ∧ purging.mode ≠ .hold ∧
    64 ≤ (0x40#8).toNat ∧ (0x3F#8).toNat < 64 := by decide +kernel

/-- A feed of known result leaves some frame. -/
theorem fed_frame {b : Byte} {f : Frame} {r : FeedResult} (h : (feed b f).map Prod.fst = some r) : ∃ g, feed b f = some (r, g) := by
  cases hf : feed b f with
  | none => simp [hf] at h
  | some x => obtain ⟨r', g⟩ := x; simp [hf] at h; exact ⟨g, by rw [h]⟩

/-- The three results of a byte, and both causes. -/
theorem witness_ReceivedByteInRun : State.reset.mode = .run ∧ (∃ g, feed 0x03#8 State.reset.frame = some (.needMore, g)) ∧
    (∃ g, feed 0x40#8 State.reset.frame = some (.error .eFmt, g)) ∧
    (runAt [0x01#8, 0x3E#8]).mode = .run ∧ (∃ g, feed 0x3F#8 (runAt [0x01#8, 0x3E#8]).frame = some (.done, g)) ∧
    ∃ g, feed 0x3E#8 (runAt [0x01#8, 0x3E#8]).frame = some (.error .eCks, g) :=
  ⟨rfl, fed_frame (by decide +kernel), fed_frame (by decide +kernel), rfl, fed_frame (by decide +kernel), fed_frame (by decide +kernel)⟩
theorem witness_LinkErrorForcesResynchronization : (runAt [0x80#8]).mode = .run := rfl
theorem witness_ResynchronizationEffects : (owing.mode = .run ∧ owing.owesResync = true) ∧ held.mode ≠ .run ∧ purging.mode ≠ .run ∧
    (State.reset.mode = .run ∧ State.reset.owesResync = false) ∧ ∃ g, feed 0x40#8 State.reset.frame = some (.error .eFmt, g) :=
  ⟨⟨rfl, rfl⟩, by decide +kernel, by decide +kernel, ⟨rfl, rfl⟩, fed_frame (by decide +kernel)⟩
/-- Both sides of the comparison of a purge, at its boundary. -/
theorem witness_QuietEvent : State.reset.mode = .run ∧ purging.mode = .purge ∧ purging.quiet + 9 < purging.pT ∧ purging.pT ≤ purging.quiet + 10 := by
  decide +kernel
theorem witness_PurgeDiscards : purging.mode = .purge := rfl
theorem witness_HostPurge : held.mode = .hold ∧ State.reset.mode ≠ .hold := by decide +kernel
theorem witness_ReleaseEndsTheHold : held.mode = .hold ∧ purging.mode ≠ .hold := by decide +kernel
theorem witness_ReinitializationPassesTheDivisor : held.mode = .hold ∧ State.reset.mode ≠ .hold := by decide +kernel
theorem witness_ResynchronizationIsSilent : (∃ t, exec (.syRxbyte 0x41#8) State.reset = .next t) ∧
    purging.mode = .purge ∧ ∃ t, exec (.sum8 []) purging = .next t :=
  ⟨next_of_after (by decide +kernel), rfl, ⟨_, rfl⟩⟩

/-- An outcome of known mode goes on to a state of that mode. -/
theorem next_mode {o : Host.Outcome State Fault Refusal} {m : Mode} (h : (after o).map State.mode = some m) : ∃ t, o = .next t ∧ t.mode = m := by
  cases o with
  | next t => exact ⟨t, rfl, by simpa [after] using h⟩
  | fault r => cases h
  | refused r => cases h

/-- Two adjacent Quiet events, the first too short. -/
theorem witness_QuietEvent_adjacent : purging.mode ≠ .hold ∧ ∃ t, exec (.syQuiet 6) purging = .next t ∧ t.mode = .purge :=
  ⟨by decide +kernel, next_mode (by decide +kernel)⟩
/-- The two ways out of a purge. -/
theorem witness_PurgeEndsOnlyByQuiet : purging.mode = .purge ∧
    (∃ t, step (given purging [.packet (.event 2#2 [.nat 10])]) = .next t ∧ t.mode = .run) ∧
    ∃ t, step (given purging [.reset]) = .next t ∧ t.mode = .run :=
  ⟨rfl, next_mode (by decide +kernel), next_mode (by decide +kernel)⟩
/-- Each of the transitions listed. -/
theorem witness_ModeMovesOnlyAsListed :
    (∃ t, exec (.syRxbyte 0x3F#8) (runAt [0x01#8, 0x3E#8]) = .next t ∧ t.mode = .hold) ∧
    (∃ t, exec (.syRxbyte 0x41#8) State.reset = .next t ∧ t.mode = .purge) ∧
    (∃ t, exec (.syRxerr .parity) State.reset = .next t ∧ t.mode = .purge) ∧
    (∃ t, exec .syRelease held = .next t ∧ t.mode = .run) ∧ (∃ t, exec (.syPurge 10) held = .next t ∧ t.mode = .purge) ∧
    (∃ t, exec (.syQuiet 10) purging = .next t ∧ t.mode = .run) ∧ (∃ t, exec .syResync owing = .next t ∧ t.mode = .purge) ∧
    (∃ t, step (given held [.packet (.cmd 0x22#8 [])]) = .next t ∧ t.mode = .run) ∧ ∃ t, step (given held [.reset]) = .next t ∧ t.mode = .run :=
  ⟨next_mode (by decide +kernel), next_mode (by decide +kernel), next_mode (by decide +kernel), next_mode (by decide +kernel), next_mode (by decide +kernel), next_mode (by decide +kernel),
    next_mode (by decide +kernel), next_mode (by decide +kernel), next_mode (by decide +kernel)⟩

/-- An outcome of known session goes on to a state of that session. -/
theorem next_session {o : Host.Outcome State Fault Refusal} {l : Link} {k : Flash}
    (h : (after o).map (fun t => (t.link, t.flash)) = some (l, k)) : ∃ t, o = .next t ∧ t.link = l ∧ t.flash = k := by
  cases o with
  | next t => simp [after] at h; exact ⟨t, rfl, h.1, h.2⟩
  | fault r => cases h
  | refused r => cases h

/-- The host in a session, unlocked. -/
def unlocked : State := { held with link := .connected, flash := .unlocked }

/-- Each way into and out of a session. -/
theorem witness_SessionMovesOnlyAsListed :
    (∃ t, step (given held [.session .startCommunication]) = .next t ∧ t.link = .connected ∧ t.flash = .locked) ∧
    (∃ t, step (given { held with link := .connected } [.session .prepareToReflash]) = .next t ∧ t.link = .connected ∧ t.flash = .unlocked) ∧
    (∃ t, step (given unlocked [.session .startCommunication]) = .next t ∧ t.link = .connected ∧ t.flash = .locked) ∧
    (∃ t, step (given { unlocked with mode := .run, frame := Frame.reset } [.packet (.event 1#2 [.kind .parity])]) = .next t ∧ t.link = .disconnected ∧ t.flash = .locked) ∧
    (∃ t, step (given unlocked [.reset]) = .next t ∧ t.link = .disconnected ∧ t.flash = .locked) ∧
    (held.mode = .hold ∧ held.link = .disconnected ∧ unlocked.mode = .hold ∧ unlocked.link = .connected ∧ State.reset.mode ≠ .hold) :=
  ⟨next_session (by decide +kernel), next_session (by decide +kernel), next_session (by decide +kernel), next_session (by decide +kernel),
    next_session (by decide +kernel), rfl, rfl, rfl, rfl, by decide +kernel⟩
theorem disciplined_packet {s : State} {p : Packet} {j : Instr} {u : State} (hf : fetch s = some (.packet p, u)) (hd : decode p = .ok j)
    (hj : Instr.synchronizersOwn j = false) : Disciplined s := by
  intro p' t' i' hf' hd'
  rw [hf] at hf'
  cases hf'
  rw [hd] at hd'
  cases hd'
  exact hj
theorem promise_run {s : State} (hm : s.mode = .run) (h : s.frame.complete = false) : ModePromise s := by simp [ModePromise, hm, h]
theorem promise_hold {s : State} (hm : s.mode = .hold) (h : s.frame.Valid) : ModePromise s := by simp [ModePromise, hm, h]
/-- A byte that completes a frame in RUN, and the release of a held frame. -/
theorem witness_StepKeepsTheSynchronizerInvariant :
    (let s := given (runAt [0x01#8, 0x3E#8]) [.packet (.event 0#2 [.byte 0x3F#8])]
     s.Inv ∧ Disciplined s ∧ ∃ t, step s = .next t) ∧
    (let s := given held [.packet (.cmd 0x22#8 [])]
     s.Inv ∧ Disciplined s ∧ ∃ t, step s = .next t) ∧
    (let s := given (runAt [0x01#8, 0x3E#8]) [.packet (.event 0#2 [.byte 0x3F#8])]
     s.Inv ∧ s.owesResync = false ∧ Disciplined s) ∧
    (owing.Inv ∧ ∃ t, exec .syResync owing = .next t) := by
  have h1 : (given (runAt [0x01#8, 0x3E#8]) [.packet (.event 0#2 [.byte 0x3F#8])]).frame.Inv := by
    apply inv_of_counts <;> decide +kernel
  have h2 : (given held [.packet (.cmd 0x22#8 [])]).frame.Inv := by apply inv_of_counts <;> decide +kernel
  have v2 : (given held [.packet (.cmd 0x22#8 [])]).frame.Valid := ⟨by decide +kernel, by decide +kernel⟩
  have d1 : Disciplined (given (runAt [0x01#8, 0x3E#8]) [.packet (.event 0#2 [.byte 0x3F#8])]) :=
    disciplined_packet (p := .event 0#2 [.byte 0x3F#8]) (j := .syRxbyte 0x3F#8)
      (u := given (runAt [0x01#8, 0x3E#8]) []) rfl rfl rfl
  have d2 : Disciplined (given held [.packet (.cmd 0x22#8 [])]) :=
    disciplined_packet (p := .cmd 0x22#8 []) (j := .syRelease) (u := given held [])
      (by simp [fetch, given, held, takeHostInput, Input.isEvent]) rfl rfl
  have h3 : owing.frame.Inv := by apply inv_of_counts <;> decide +kernel
  have i1 : (given (runAt [0x01#8, 0x3E#8]) [.packet (.event 0#2 [.byte 0x3F#8])]).Inv :=
    ⟨h1, rfl, promise_run rfl (by decide +kernel), fun _ => rfl, .inl rfl⟩
  exact ⟨⟨i1, d1, next_of_after (by decide +kernel)⟩,
    ⟨⟨h2, rfl, promise_hold rfl v2, fun _ => rfl, .inl rfl⟩, d2, next_of_after (by decide +kernel)⟩,
    ⟨i1, rfl, d1⟩,
    ⟨⟨h3, rfl, promise_run rfl (by decide +kernel), fun _ => rfl, .inl rfl⟩, next_of_after (by decide +kernel)⟩⟩
theorem witness_ReceiveEventIsNeverRefused :
    let s := given (runAt [0x01#8, 0x3E#8]) [.packet (encode (.syRxbyte 0x3F#8))]
    s.Inv ∧ s.mode ≠ .hold ∧ s.inputs = .packet (encode (.syRxbyte 0x3F#8)) :: [] := by
  refine ⟨⟨?_, rfl, promise_run rfl (by decide +kernel), fun _ => rfl, .inl rfl⟩, by decide +kernel, rfl⟩
  apply inv_of_counts <;> decide +kernel
theorem witness_OnlyThePlatformChangesMemory : Memory.wf State.reset.mem ∧
    ∃ t, step (given State.reset [.platformWrite 0x1000#32 0x77#8]) = .next t := by
  refine ⟨⟨List.Pairwise.nil, fun c hc => by cases hc⟩, ?_⟩
  exact ⟨_, rfl⟩
theorem witness_PortsOnlyAddAndTransmitOnlyInHold : (∃ t, step (given State.reset [.reset]) = .next t) ∧
    State.reset.mode ≠ .hold ∧ ∃ t, step (given State.reset [.packet (.cmd 0x01#8 [.bytes []])]) = .next t :=
  ⟨⟨_, rfl⟩, by decide +kernel, ⟨_, rfl⟩⟩
/-- The last byte read with a defined value in each buffer, and the first without. -/
theorem witness_HostReadsTheReceivedBytes : State.reset.mode ≠ .hold ∧ held.mode = .hold ∧ (0 : Fin 4).val < held.frame.hrx.toNat ∧
    (3 : Fin 256).val < held.frame.drx.toNat ∧ held.frame.hrx.toNat ≤ (1 : Fin 4).val ∧ held.frame.drx.toNat ≤ (4 : Fin 256).val := by decide +kernel
theorem witness_SetSpeedAcknowledgesFirst : held.mode = .hold ∧ (List.replicate 255 0xC7#8).length ≤ 255 := by decide +kernel

end Sys2Proof.Tests
end

/-! PROOFS. The invariant of the in-progress frame (spec/10_state.md R28, R20): what the block can do to the frame is said once, for an operation and for a
step, and each of the things it can do keeps the invariant. -/

namespace Sys2Proof.Machine

/-! ## Frames whose counts are zero -/

/-- The frame reset leaves the four counts at zero. -/
theorem zeroCounts_zero (f : Frame) : f.zeroCounts.Zero := ⟨rfl, rfl, rfl, rfl⟩

/-- Reset of the block leaves the four counts at zero, whatever the buffers hold. -/
theorem resetBlock_frame_zero (s : State) : (resetBlock s).frame.Zero := ⟨rfl, rfl, rfl, rfl⟩

/-- The counts alone make a zero frame meet the invariant. -/
theorem Frame.Zero.inv {f : Frame} (h : f.Zero) : f.Inv := by
  obtain ⟨hlen, dlen, hrx, drx⟩ := h
  exact
    { header_legal := by simp [hlen]
      header_bounded := by simp [hrx]
      data_bounded := by simp [drx]
      data_after_header := fun hpos => by simp [drx] at hpos
      first_is_empty := fun _ => ⟨hlen, dlen, drx⟩ }

/-! ## What taking one byte does to the counts -/

@[simp] theorem takeHeaderByte_hlenExp (b : Byte) (f : Frame) : (takeHeaderByte b f).hlenExp = f.hlenExp := by
  simp only [takeHeaderByte]; split <;> rfl
@[simp] theorem takeHeaderByte_hrx (b : Byte) (f : Frame) : (takeHeaderByte b f).hrx = f.hrx + 1#3 := by
  simp only [takeHeaderByte]; split <;> rfl
@[simp] theorem takeHeaderByte_drx (b : Byte) (f : Frame) : (takeHeaderByte b f).drx = f.drx := by
  simp only [takeHeaderByte]; split <;> rfl

@[simp] theorem takeDataByte_hlenExp (b : Byte) (f : Frame) : (takeDataByte b f).hlenExp = f.hlenExp := rfl
@[simp] theorem takeDataByte_dlenExp (b : Byte) (f : Frame) : (takeDataByte b f).dlenExp = f.dlenExp := rfl
@[simp] theorem takeDataByte_hrx (b : Byte) (f : Frame) : (takeDataByte b f).hrx = f.hrx := rfl
@[simp] theorem takeDataByte_drx (b : Byte) (f : Frame) : (takeDataByte b f).drx = f.drx + 1#9 := rfl

/-- Below its expected length the count of header bytes goes up by one without wrapping (R27). -/
theorem hrx_add_one_toNat {f : Frame} (h : f.hrx < f.hlenExp) : (f.hrx + 1#3).toNat = f.hrx.toNat + 1 := by
  have := f.hlenExp.isLt
  rw [BitVec.lt_def] at h
  simp only [BitVec.toNat_add, BitVec.toNat_ofNat]
  omega

/-- Up to the checksum byte the count of data bytes goes up by one without wrapping (R27). -/
theorem drx_add_one_toNat {f : Frame} (h : f.drx.toNat ≤ f.dlenExp.toNat) : (f.drx + 1#9).toNat = f.drx.toNat + 1 := by
  have := f.dlenExp.isLt
  simp only [BitVec.toNat_add, BitVec.toNat_ofNat]
  omega

/-! ## Taking one byte keeps the invariant -/

namespace Frame.Inv

variable {f : Frame}

/-- While header bytes are missing no data byte has been counted. -/
theorem drx_eq_zero (hi : f.Inv) (hl : f.hrx < f.hlenExp) : f.drx = 0#9 := by
  by_contra hd
  have hpos : 0 < f.drx.toNat := Nat.pos_of_ne_zero fun h => hd (BitVec.eq_of_toNat_eq h)
  obtain ⟨heq, -⟩ := hi.data_after_header hpos
  simp [heq] at hl

/-- With the header taken and the frame not complete, the checksum byte is still to come. -/
theorem drx_le_dlenExp (hi : f.Inv) (h0 : f.hrx ≠ 0#3) (heq : f.hrx = f.hlenExp) (hc : f.complete = false) :
    f.drx.toNat ≤ f.dlenExp.toNat := by
  have hne : f.drx.toNat ≠ f.dlenExp.toNat + 1 := fun h => by
    simp [(complete_iff f).mpr ⟨h0, heq, h⟩] at hc
  have := hi.data_bounded
  omega

/-- The counts of header bytes agree once no header byte is missing. -/
theorem hrx_eq_hlenExp (hi : f.Inv) (hl : ¬ f.hrx < f.hlenExp) : f.hrx = f.hlenExp := by
  have := hi.header_bounded
  rw [BitVec.lt_def] at hl
  exact BitVec.eq_of_toNat_eq (by omega)

/-- Before the first data byte only the bounds on the header count are to be met. -/
theorem of_header (h4 : f.hlenExp.toNat ≤ 4) (hpos : 0 < f.hrx.toNat) (hle : f.hrx.toNat ≤ f.hlenExp.toNat)
    (hdrx : f.drx = 0#9) : f.Inv where
  header_legal := h4
  header_bounded := hle
  data_bounded := by simp [hdrx]
  data_after_header := fun h => by simp [hdrx] at h
  first_is_empty := fun h => by simp [h] at hpos

/-- Steps 1 and 2 on an accepted first byte (spec/42_frame_decoder.md R143, R144). -/
theorem after_first_byte (hi : f.Inv) (b : Byte) (h0 : f.hrx = 0#3) : (takeHeaderByte b (startFrame b f)).Inv := by
  obtain ⟨-, -, hdrx⟩ := hi.first_is_empty h0
  obtain ⟨hmin, hmax⟩ := headerLength_range b
  have hlen : (takeHeaderByte b (startFrame b f)).hlenExp.toNat = headerLength b := by
    rw [takeHeaderByte_hlenExp, startFrame_hlenExp_toNat]
  rw [takeHeaderByte_startFrame b f h0] at hlen ⊢
  exact of_header (hlen.trans_le hmax) Nat.zero_lt_one (hmin.trans_eq hlen.symm) hdrx

/-- Step 2 on a later header byte (R144, R145), whatever data length an explicit length byte announces. -/
theorem after_header_byte (hi : f.Inv) (b : Byte) (hl : f.hrx < f.hlenExp) : (takeHeaderByte b f).Inv := by
  have hrx : (takeHeaderByte b f).hrx.toNat = f.hrx.toNat + 1 := by
    rw [takeHeaderByte_hrx, hrx_add_one_toNat hl]
  apply of_header
  · simpa using hi.header_legal
  · omega
  · rw [hrx, takeHeaderByte_hlenExp]; exact hl
  · rw [takeHeaderByte_drx, hi.drx_eq_zero hl]

/-- Step 3 on a data byte or the checksum byte (R146). -/
theorem after_data_byte (hi : f.Inv) (b : Byte) (h0 : f.hrx ≠ 0#3) (heq : f.hrx = f.hlenExp) (hc : f.complete = false) :
    (takeDataByte b f).Inv := by
  have hle := hi.drx_le_dlenExp h0 heq hc
  have hpos : 0 < f.hlenExp.toNat :=
    Nat.pos_of_ne_zero fun h => h0 (heq.trans (BitVec.eq_of_toNat_eq h))
  exact
    { header_legal := hi.header_legal
      header_bounded := hi.header_bounded
      data_bounded := by
        rw [takeDataByte_drx, takeDataByte_dlenExp, drx_add_one_toNat hle]
        omega
      data_after_header := fun _ => ⟨heq, hpos⟩
      first_is_empty := fun h => absurd h h0 }

/-- A feed keeps the invariant, whatever it answers (R142 to R147). -/
theorem after_feed {g : Frame} {b : Byte} {r : FeedResult} (hi : f.Inv) (h : feed b f = some (r, g)) : g.Inv := by
  obtain ⟨hc, hcases⟩ := feed_cases h
  rcases hcases with ⟨-, -, -, rfl⟩ | ⟨h0, -, -, rfl⟩ | ⟨-, hl, -, rfl⟩ | ⟨h0, hl, -, rfl⟩
  case inl => exact hi
  case inr.inl => exact hi.after_first_byte b h0
  case inr.inr.inl => exact hi.after_header_byte b hl
  case inr.inr.inr => exact hi.after_data_byte b h0 (hi.hrx_eq_hlenExp hl) hc

end Frame.Inv

/-! ## What the block can do to the frame -/

/-- Everything the block does to the in-progress frame, from `f` to `g`. -/
inductive FrameMove (f : Frame) : Frame → Prop where
  /-- The frame is left as it is. -/
  | stays : FrameMove f f
  /-- The counts are zeroed: FD.RESET, a resynchronization, a release, reset of the block. -/
  | zeroed {g : Frame} (h : g.Zero) : FrameMove f g
  /-- One byte is fed to the decoder. -/
  | fed {g : Frame} {b : Byte} {r : FeedResult} (h : feed b f = some (r, g)) : FrameMove f g

/-- Whatever the block does to the frame keeps the invariant. -/
theorem FrameMove.keeps_inv {f g : Frame} (h : FrameMove f g) (hi : f.Inv) : g.Inv := by
  cases h with
  | stays => exact hi
  | zeroed hz => exact hz.inv
  | fed hf => exact hi.after_feed hf

/-- An operation refused under a condition goes on only where the condition fails. -/
theorem next_of_guarded {c : Prop} [Decidable c] {r : Refusal} {o : Host.Outcome State Fault Refusal} {t : State}
    (h : (if c then .refused r else o) = .next t) : ¬ c ∧ o = .next t := by
  split at h
  · cases h
  · rename_i hc; exact ⟨hc, h⟩

theorem feedState_frame {s t : State} {b : Byte} {r : FeedResult} (h : feedState b s = some (r, t)) :
    feed b s.frame = some (r, t.frame) := by
  obtain ⟨g, hf, ht, -⟩ := feedState_cases h
  rw [ht]
  exact hf

theorem feedOp_frameMove {s t : State} {b : Byte} (h : feedOp b s = .next t) : FrameMove s.frame t.frame := by
  obtain ⟨r, hr⟩ := feedOp_next h
  exact .fed (feedState_frame hr)

/-- A byte in RUN moves the frame by one feed, and an error zeroes its counts after that. -/
theorem reactToFeed_frameMove {s t : State} {b : Byte} {r : FeedResult} (h : feedState b s = some (r, t)) :
    FrameMove s.frame (reactToFeed r t).frame := by
  have hf := feedState_frame h
  cases r with
  | needMore => exact .fed hf
  | done => exact .fed hf
  | error c => exact .zeroed (zeroCounts_zero t.frame)

theorem execSyRxbyte_frameMove {s t : State} {b : Byte} (h : execSyRxbyte b s = .next t) : FrameMove s.frame t.frame := by
  cases hm : s.mode with
  | run =>
    rcases execSyRxbyte_run hm h with ⟨-, hr⟩ | ⟨r, u, hf, hu⟩
    · cases hr
    · cases hu; exact reactToFeed_frameMove hf
  | hold => simp only [execSyRxbyte, hm] at h; cases h; exact .stays
  | purge => simp only [execSyRxbyte, hm] at h; cases h; exact .stays

theorem execSyRxerr_frameMove {s t : State} {k : LinkError} (h : execSyRxerr k s = .next t) : FrameMove s.frame t.frame := by
  cases hm : s.mode <;> simp only [execSyRxerr, hm] at h <;> cases h
  case run => exact .zeroed (zeroCounts_zero s.frame)
  case hold => exact .stays
  case purge => exact .stays

theorem execSyQuiet_frame {s t : State} {d : Nat} (h : execSyQuiet d s = .next t) : t.frame = s.frame := by
  cases hm : s.mode <;> simp only [execSyQuiet, hm] at h
  case run => cases h; rfl
  case hold => cases h; rfl
  case purge => split at h <;> cases h <;> rfl

theorem execSyResync_frameMove {s t : State} (h : execSyResync s = .next t) : FrameMove s.frame t.frame := by
  obtain ⟨-, h⟩ := next_of_guarded h
  obtain ⟨-, h⟩ := next_of_guarded h
  cases h
  exact .zeroed (zeroCounts_zero s.frame)

theorem execSyRelease_frameMove {s t : State} (h : execSyRelease s = .next t) : FrameMove s.frame t.frame := by
  obtain ⟨-, h⟩ := next_of_guarded h
  cases h
  exact .zeroed (zeroCounts_zero s.frame)

/-- Everything an operation does to the frame when it goes on. -/
theorem exec_frameMove {s t : State} {i : Instr} (h : exec i s = .next t) : FrameMove s.frame t.frame := by
  cases i with
  | fmtBad x => exact feedOp_frameMove h
  | fmtNLb => exact feedOp_frameMove h
  | fmtALb x => exact feedOp_frameMove h
  | fmtNLif l => exact feedOp_frameMove h
  | fmtALif x l => exact feedOp_frameMove h
  | txhShort l => obtain ⟨-, h⟩ := next_of_guarded h; cases h; exact .stays
  | txhLong l =>
    obtain ⟨-, h⟩ := next_of_guarded h
    obtain ⟨-, h⟩ := next_of_guarded h
    cases h; exact .stays
  | sum8 bs => cases h; exact .stays
  | sumc8 bs => cases h; exact .stays
  | vsum8 bs e => cases h; exact .stays
  | vsumc8 bs e => cases h; exact .stays
  | crc16b bs => cases h; exact .stays
  | crc16m a n => obtain ⟨-, h⟩ := next_of_guarded h; cases h; exact .stays
  | crc16v a n e => obtain ⟨-, h⟩ := next_of_guarded h; cases h; exact .stays
  | fdReset => cases h; exact .zeroed (zeroCounts_zero s.frame)
  | fdFeed b => exact feedOp_frameMove h
  | feSend p n =>
    obtain ⟨-, h⟩ := next_of_guarded h
    obtain ⟨-, h⟩ := next_of_guarded h
    cases h; exact .stays
  | syResync => exact execSyResync_frameMove h
  | syPurge d => obtain ⟨-, h⟩ := next_of_guarded h; cases h; exact .stays
  | syRelease => exact execSyRelease_frameMove h
  | syReinit d => obtain ⟨-, h⟩ := next_of_guarded h; cases h; exact .stays
  | syRxbyte b => exact execSyRxbyte_frameMove h
  | syRxerr k => exact execSyRxerr_frameMove h
  | syQuiet d => rw [execSyQuiet_frame h]; exact .stays

/-- Everything an input does to the frame when the block goes on. -/
theorem runInput_frameMove {s t : State} {i : Input} (h : runInput i s = .next t) : FrameMove s.frame t.frame := by
  rcases runInput_cases h with ⟨p, j, -, -, hx⟩ | ⟨r, -, -, v, ht⟩ | ⟨a, -, -, rfl⟩ | ⟨a, b, -, rfl⟩ | ⟨-, rfl⟩
  case inl => exact exec_frameMove hx
  case inr.inl => rw [ht]; exact .stays
  case inr.inr.inl => rw [moveSession_frame]; exact .stays
  case inr.inr.inr.inl => exact .stays
  case inr.inr.inr.inr => exact .zeroed (resetBlock_frame_zero s)

theorem fetch_frame {s t : State} {i : Input} (h : fetch s = some (i, t)) : t.frame = s.frame := by
  obtain ⟨ht, -⟩ := fetch_eq h
  rw [ht]

/-- Everything a step does to the frame. -/
theorem step_frameMove {s t : State} (h : step s = .next t) : FrameMove s.frame t.frame := by
  rcases step_cases h with ⟨-, rfl⟩ | ⟨i, u, hf, hr⟩
  · exact .stays
  · rw [← fetch_frame hf]; exact runInput_frameMove hr

/-- Settles O31: a step leaves the frame, zeroes its counts or feeds it one byte, and each of these keeps the invariant. -/
theorem stepKeepsTheFrameInvariant : Obligations.StepKeepsTheFrameInvariant := by
  intro s t hi h
  exact (step_frameMove h).keeps_inv hi

/-! ## Reset -/

theorem reset_frame_zero : State.reset.frame.Zero := ⟨rfl, rfl, rfl, rfl⟩

theorem reset_inv : State.reset.Inv where
  frame_inv := reset_frame_zero.inv
  receiver_on := rfl
  promise := complete_of_first rfl
  quiet_in_purge := fun _ => rfl
  quiet_short := .inl rfl

/-- Nothing is listed at reset. -/
theorem reset_mem_wf : Memory.wf State.reset.mem := ⟨.nil, fun c hc => by cases hc⟩

/-- Settles O54: the reset frame has zero counts, the mode is RUN, and no memory cell is listed. -/
theorem resetMeetsTheInvariants : Obligations.ResetMeetsTheInvariants := ⟨reset_inv, reset_mem_wf⟩

end Sys2Proof.Machine

/-! PROOFS. The external memory and the host's reads: no operation of the block changes the memory (spec/20_memory.md R57), and what a host read of the
frame answers where the byte read has a defined value and where it has none (R53, spec/93_implementation_defined.md U3). -/

namespace Sys2Proof.Machine

/-! ## The memory is only read -/

theorem feedState_mem {s t : State} {b : Byte} {r : FeedResult} (h : feedState b s = some (r, t)) : t.mem = s.mem := by
  obtain ⟨g, -, ht, -⟩ := feedState_cases h
  rw [ht]

theorem feedOp_mem {s t : State} {b : Byte} (h : feedOp b s = .next t) : t.mem = s.mem := by
  obtain ⟨r, hr⟩ := feedOp_next h
  exact feedState_mem hr

@[simp] theorem reactToFeed_mem (r : FeedResult) (s : State) : (reactToFeed r s).mem = s.mem := by cases r <;> rfl

theorem execSyRxbyte_mem {s t : State} {b : Byte} (h : execSyRxbyte b s = .next t) : t.mem = s.mem := by
  cases hm : s.mode with
  | run =>
    rcases execSyRxbyte_run hm h with ⟨-, hr⟩ | ⟨r, u, hf, hu⟩
    · cases hr
    · cases hu
      rw [reactToFeed_mem, feedState_mem hf]
  | hold => simp only [execSyRxbyte, hm] at h; cases h; rfl
  | purge => simp only [execSyRxbyte, hm] at h; cases h; rfl

theorem execSyRxerr_mem {s t : State} {k : LinkError} (h : execSyRxerr k s = .next t) : t.mem = s.mem := by
  cases hm : s.mode <;> simp only [execSyRxerr, hm] at h <;> cases h <;> rfl

theorem execSyQuiet_mem {s t : State} {d : Nat} (h : execSyQuiet d s = .next t) : t.mem = s.mem := by
  cases hm : s.mode <;> simp only [execSyQuiet, hm] at h
  case run => cases h; rfl
  case hold => cases h; rfl
  case purge => split at h <;> cases h <;> rfl

/-- An operation that is refused under a condition and else goes on to `u` leaves the memory as `u` does. -/
theorem mem_of_guarded {c : Prop} [Decidable c] {r : Refusal} {s t u : State} (h : (if c then .refused r else .next u) =
    (.next t : Host.Outcome State Fault Refusal)) (hu : u.mem = s.mem) : t.mem = s.mem := by
  obtain ⟨-, h⟩ := next_of_guarded h
  cases h
  exact hu

/-- No operation of the block writes the memory (R57). -/
theorem exec_mem {s t : State} {i : Instr} (h : exec i s = .next t) : t.mem = s.mem := by
  cases i with
  | fmtBad x => exact feedOp_mem h
  | fmtNLb => exact feedOp_mem h
  | fmtALb x => exact feedOp_mem h
  | fmtNLif l => exact feedOp_mem h
  | fmtALif x l => exact feedOp_mem h
  | txhShort l => exact mem_of_guarded h (transmit_mem _ s)
  | txhLong l => exact mem_of_guarded (next_of_guarded h).2 (transmit_mem _ s)
  | sum8 bs => cases h; rfl
  | sumc8 bs => cases h; rfl
  | vsum8 bs e => cases h; rfl
  | vsumc8 bs e => cases h; rfl
  | crc16b bs => cases h; rfl
  | crc16m a n => exact mem_of_guarded h (by simp)
  | crc16v a n e => exact mem_of_guarded h (by simp)
  | fdReset => cases h; rfl
  | fdFeed b => exact feedOp_mem h
  | feSend p n => exact mem_of_guarded (next_of_guarded h).2 (by simp)
  | syResync => exact mem_of_guarded (next_of_guarded h).2 (resync_mem s)
  | syPurge d => exact mem_of_guarded h (enterPurge_mem d .hold s)
  | syRelease => exact mem_of_guarded h (resetFrame_mem s)
  | syReinit d => exact mem_of_guarded h (emit_mem s _)
  | syRxbyte b => exact execSyRxbyte_mem h
  | syRxerr k => exact execSyRxerr_mem h
  | syQuiet d => exact execSyQuiet_mem h

@[simp] theorem resetBlock_mem (s : State) : (resetBlock s).mem = s.mem := rfl

theorem fetch_mem {s t : State} {i : Input} (h : fetch s = some (i, t)) : t.mem = s.mem := by
  obtain ⟨ht, -⟩ := fetch_eq h
  rw [ht]

/-- Everything an input does to the memory: only the platform's own change writes it. -/
theorem runInput_mem {s t : State} {i : Input} (h : runInput i s = .next t) :
    t.mem = s.mem ∨ ∃ a b, i = .platformWrite a b ∧ t.mem = memWrite s.mem a.toNat b := by
  rcases runInput_cases h with ⟨p, j, -, -, hx⟩ | ⟨r, -, -, v, ht⟩ | ⟨a, -, -, rfl⟩ | ⟨a, b, rfl, rfl⟩ | ⟨-, rfl⟩
  case inl => exact .inl (exec_mem hx)
  case inr.inl => rw [ht]; exact .inl rfl
  case inr.inr.inl => exact .inl (moveSession_mem a s)
  case inr.inr.inr.inl => exact .inr ⟨a, b, rfl, changeMemory_mem a b s⟩
  case inr.inr.inr.inr => exact .inl (resetBlock_mem s)

/-- Everything a step does to the memory. -/
theorem step_mem {s t : State} (h : step s = .next t) :
    t.mem = s.mem ∨ ∃ a b u, fetch s = some (.platformWrite a b, u) ∧ t.mem = memWrite s.mem a.toNat b := by
  rcases step_cases h with ⟨-, rfl⟩ | ⟨i, u, hf, hr⟩
  · exact .inl rfl
  · rw [← fetch_mem hf]
    rcases runInput_mem hr with hmem | ⟨a, b, rfl, hmem⟩
    · exact .inl hmem
    · exact .inr ⟨a, b, u, hf, hmem⟩

theorem SameMemory.of_mem_eq {s t : State} (h : t.mem = s.mem) : SameMemory s t := fun a => by rw [h]

/-- Every address lies in the external memory (spec/20_memory.md R54). -/
theorem addr_le_maxAddr (a : Addr) : a.toNat ≤ Config.maxAddr := Nat.le_of_lt_succ a.isLt

/-- Settles O56: a step leaves the memory's list as it is or writes the one byte of the platform's change, and the laws of `memWrite` say what such a
write reads as and that it keeps the canonical form. -/
theorem onlyThePlatformChangesMemory : Obligations.OnlyThePlatformChangesMemory := by
  intro s t h
  rcases step_mem h with hmem | ⟨a, b, u, hf, hmem⟩
  · exact ⟨fun hwf => hmem ▸ hwf, .inl ⟨hmem, .of_mem_eq hmem⟩⟩
  · rw [hmem]
    exact ⟨fun hwf => memWrite_wf s.mem a.toNat b hwf (addr_le_maxAddr a),
      .inr ⟨a, b, u, hf, fun ⟨hrising, _⟩ => memRead_memWrite_same s.mem a.toNat b hrising,
        fun x hx => memRead_memWrite_other s.mem a.toNat x b hx⟩⟩

/-! ## The host reads the frame -/

theorem hostRead_refused {s : State} (r : HostRead) (hm : s.mode ≠ .hold) :
    runInput (.hostRead r) s = .refused .hostReadOutsideHold := if_pos hm

/-- A host read of what has a defined value puts that value on the record and does nothing else. -/
theorem hostRead_defined {s : State} {r : HostRead} {v : Nat} (hm : s.mode = .hold) (hv : readField r s.frame = some v) :
    runInput (.hostRead r) s = .next { s with trace := s.trace ++ [.hostRead r v] } := by
  simp [runInput, hostReadFrame, hm, hv, State.emit]

/-- A host read of a byte without a defined value draws a free one. -/
theorem hostRead_free {s : State} {r : HostRead} (hm : s.mode = .hold) (hv : readField r s.frame = none) : ∃ b : Byte,
    runInput (.hostRead r) s = .next { s with trace := s.trace ++ [.hostRead r b.toNat], fresh := s.fresh + 1 } :=
  ⟨Config.freeByte s.fresh, by simp [runInput, hostReadFrame, hm, hv, State.emit]⟩

/-- Settles O58: the four counts and the bytes below the received count have a defined value, the bytes from that count on have none. -/
theorem hostReadsTheReceivedBytes : Obligations.HostReadsTheReceivedBytes := by
  refine ⟨fun r s hm => hostRead_refused r hm, fun s hm => ⟨?_, ?_, ?_, ?_⟩, ?_, ?_, ?_, ?_⟩
  · exact hostRead_defined hm rfl
  · exact hostRead_defined hm rfl
  · exact hostRead_defined hm rfl
  · exact hostRead_defined hm rfl
  · exact fun s i hm hi => hostRead_defined hm (if_pos hi)
  · exact fun s j hm hj => hostRead_defined hm (if_pos hj)
  · exact fun s i hm hi => hostRead_free hm (if_neg (Nat.not_lt.mpr hi))
  · exact fun s j hm hj => hostRead_free hm (if_neg (Nat.not_lt.mpr hj))

end Sys2Proof.Machine

/-! PROOFS. The encoding (spec/30_encoding.md): a packet and the operation it stands for determine each other (R78, R80, R83, R84), and the table of first
bytes read by the two fields of the format byte (R71, R78). -/

namespace Sys2Proof

/-! ## From the operation to its packet and back -/

/-- Settles O1, row by row: each constructor's packet is read back by its own row of the tables. -/
theorem wellFormedOperationDecodesFromItsPacket : Obligations.WellFormedOperationDecodesFromItsPacket := by
  intro i
  change Laws.RoundTrip.Statement i
  cases i with
  | fmtBad x => exact Laws.RoundTrip.fmtBad x
  | fmtNLb => exact Laws.RoundTrip.fmtNLb
  | fmtALb x => exact Laws.RoundTrip.fmtALb x
  | fmtNLif l => exact Laws.RoundTrip.fmtNLif l
  | fmtALif x l => exact Laws.RoundTrip.fmtALif x l
  | txhShort l => exact Laws.RoundTrip.txhShort l
  | txhLong l => exact Laws.RoundTrip.txhLong l
  | sum8 s => exact Laws.RoundTrip.sum8 s
  | sumc8 s => exact Laws.RoundTrip.sumc8 s
  | vsum8 s e => exact Laws.RoundTrip.vsum8 s e
  | vsumc8 s e => exact Laws.RoundTrip.vsumc8 s e
  | crc16b s => exact Laws.RoundTrip.crc16b s
  | crc16m a n => exact Laws.RoundTrip.crc16m a n
  | crc16v a n e => exact Laws.RoundTrip.crc16v a n e
  | fdReset => exact Laws.RoundTrip.fdReset
  | fdFeed b => exact Laws.RoundTrip.fdFeed b
  | feSend p n => exact Laws.RoundTrip.feSend p n
  | syResync => exact Laws.RoundTrip.syResync
  | syPurge t => exact Laws.RoundTrip.syPurge t
  | syRelease => exact Laws.RoundTrip.syRelease
  | syReinit d => exact Laws.RoundTrip.syReinit d
  | syRxbyte b => exact Laws.RoundTrip.syRxbyte b
  | syRxerr k => exact Laws.RoundTrip.syRxerr k
  | syQuiet d => exact Laws.RoundTrip.syQuiet d

/-! ## From a packet to its operation and back: the operands -/

section Operands

variable {ops : List Operand} {i : Instr}

theorem takeNone_ok {j : Instr} (h : takeNone j ops = .ok i) : ops = [] ∧ i = j := by
  unfold takeNone at h; split at h <;> cases h; exact ⟨rfl, rfl⟩

theorem takeBytes_ok {f : List Byte → Instr} (h : takeBytes f ops = .ok i) : ∃ s, ops = [.bytes s] ∧ i = f s := by
  unfold takeBytes at h; split at h <;> cases h; exact ⟨_, rfl, rfl⟩

theorem takeBytesByte_ok {f : List Byte → Byte → Instr} (h : takeBytesByte f ops = .ok i) :
    ∃ s e, ops = [.bytes s, .byte e] ∧ i = f s e := by
  unfold takeBytesByte at h; split at h <;> cases h; exact ⟨_, _, rfl, rfl⟩

theorem takeBytesNat_ok {f : List Byte → Nat → Instr} (h : takeBytesNat f ops = .ok i) :
    ∃ s n, ops = [.bytes s, .nat n] ∧ i = f s n := by
  unfold takeBytesNat at h; split at h <;> cases h; exact ⟨_, _, rfl, rfl⟩

theorem takeAddrNat_ok {f : Addr → Nat → Instr} (h : takeAddrNat f ops = .ok i) :
    ∃ a n, ops = [.addr a, .nat n] ∧ i = f a n := by
  unfold takeAddrNat at h; split at h <;> cases h; exact ⟨_, _, rfl, rfl⟩

theorem takeAddrNatHalf_ok {f : Addr → Nat → Half → Instr} (h : takeAddrNatHalf f ops = .ok i) :
    ∃ a n e, ops = [.addr a, .nat n, .half e] ∧ i = f a n e := by
  unfold takeAddrNatHalf at h; split at h <;> cases h; exact ⟨_, _, _, rfl, rfl⟩

theorem takeByteOperand_ok {f : Byte → Instr} (h : takeByteOperand f ops = .ok i) : ∃ b, ops = [.byte b] ∧ i = f b := by
  unfold takeByteOperand at h; split at h <;> cases h; exact ⟨_, rfl, rfl⟩

theorem takeNat_ok {f : Nat → Instr} (h : takeNat f ops = .ok i) : ∃ n, ops = [.nat n] ∧ i = f n := by
  unfold takeNat at h; split at h <;> cases h; exact ⟨_, rfl, rfl⟩

theorem takeKind_ok {f : LinkError → Instr} (h : takeKind f ops = .ok i) : ∃ k, ops = [.kind k] ∧ i = f k := by
  unfold takeKind at h; split at h <;> cases h; exact ⟨_, rfl, rfl⟩

end Operands

/-! ## From a packet to its operation and back: the four formats -/

/-- The rows without a length in format are tried before the rows with one (R78), so that no class carries a length of zero. -/
theorem classify_wellFormed (b : Byte) : (classify b).wellFormed = true := by
  by_cases hl : lengthInFormat b = 0#6
  · rw [← formatByte_fields b, hl]
    generalize addressing b = a
    revert a; decide
  · have hne : (lengthInFormat b != 0) = true := bne_iff_ne.mpr hl
    unfold classify
    split_ifs
    exacts [rfl, rfl, rfl, hne, hne]

/-- The mask of the short transmit header tests the addressing field. -/
theorem addressing_of_short_header {h : Byte} (hh : h &&& 0xC0#8 = 0x00#8) : addressing h = 0b00#2 :=
  calc addressing h
    _ = addressing h &&& addressing 0xC0#8 := BitVec.and_allOnes.symm
    _ = addressing (h &&& 0xC0#8) := BitVec.extractLsb'_and.symm
    _ = 0b00#2 := by rw [hh]; rfl

theorem formatByte_of_short_header {h : Byte} (hh : h &&& 0xC0#8 = 0x00#8) : formatByte 0b00#2 (lengthInFormat h) = h := by
  rw [← addressing_of_short_header hh, formatByte_fields]

/-- A decoding under a condition gives an operation only where the condition holds. -/
theorem ok_of_guarded {c : Prop} [Decidable c] {i j : Instr} {e : DecodeError}
    (h : (if c then .ok j else .error e : Except DecodeError Instr) = .ok i) : c ∧ i = j := by
  split at h
  · rename_i hc; cases h; exact ⟨hc, rfl⟩
  · cases h

/-- The two transmit headers of R80. -/
theorem decodeHeader_ok {i : Instr} : ∀ {header}, decodeHeader header = .ok i → encode i = .wireTx header ∧ i.wellFormed = true
  | [], h => nomatch h
  | [_], h => by
    obtain ⟨hshort, rfl⟩ := ok_of_guarded h
    exact ⟨by rw [encode, formatByte_of_short_header hshort], rfl⟩
  | [_, _], h => by
    obtain ⟨⟨rfl, hlong⟩, rfl⟩ := ok_of_guarded h
    exact ⟨rfl, decide_eq_true hlong⟩
  | _ :: _ :: _ :: _, h => nomatch h

theorem eq_ofNat_of_toNat {w : Nat} {x : BitVec w} {k : Nat} (h : x.toNat = k) : x = BitVec.ofNat w k := by
  rw [← h, BitVec.ofNat_toNat, BitVec.setWidth_eq]

/-- The selectors of R83. -/
theorem encode_of_decodeCommand {selector : Byte} {ops : List Operand} {i : Instr} (h : decodeCommand selector ops = .ok i) :
    encode i = .cmd selector ops := by
  unfold decodeCommand at h
  split at h
  next hs => cases eq_ofNat_of_toNat hs; obtain ⟨s, rfl, rfl⟩ := takeBytes_ok h; rfl
  next hs => cases eq_ofNat_of_toNat hs; obtain ⟨s, rfl, rfl⟩ := takeBytes_ok h; rfl
  next hs => cases eq_ofNat_of_toNat hs; obtain ⟨s, e, rfl, rfl⟩ := takeBytesByte_ok h; rfl
  next hs => cases eq_ofNat_of_toNat hs; obtain ⟨s, e, rfl, rfl⟩ := takeBytesByte_ok h; rfl
  next hs => cases eq_ofNat_of_toNat hs; obtain ⟨s, rfl, rfl⟩ := takeBytes_ok h; rfl
  next hs => cases eq_ofNat_of_toNat hs; obtain ⟨a, n, rfl, rfl⟩ := takeAddrNat_ok h; rfl
  next hs => cases eq_ofNat_of_toNat hs; obtain ⟨a, n, e, rfl, rfl⟩ := takeAddrNatHalf_ok h; rfl
  next hs => cases eq_ofNat_of_toNat hs; obtain ⟨rfl, rfl⟩ := takeNone_ok h; rfl
  next hs => cases eq_ofNat_of_toNat hs; obtain ⟨b, rfl, rfl⟩ := takeByteOperand_ok h; rfl
  next hs => cases eq_ofNat_of_toNat hs; obtain ⟨p, n, rfl, rfl⟩ := takeBytesNat_ok h; rfl
  next hs => cases eq_ofNat_of_toNat hs; obtain ⟨rfl, rfl⟩ := takeNone_ok h; rfl
  next hs => cases eq_ofNat_of_toNat hs; obtain ⟨t, rfl, rfl⟩ := takeNat_ok h; rfl
  next hs => cases eq_ofNat_of_toNat hs; obtain ⟨rfl, rfl⟩ := takeNone_ok h; rfl
  next hs => cases eq_ofNat_of_toNat hs; obtain ⟨d, rfl, rfl⟩ := takeNat_ok h; rfl
  next => cases h

/-- The event tags of R84. -/
theorem encode_of_decodeEvent {tag : BitVec 2} {ops : List Operand} {i : Instr} (h : decodeEvent tag ops = .ok i) :
    encode i = .event tag ops := by
  unfold decodeEvent at h
  split at h
  next ht => cases eq_ofNat_of_toNat ht; obtain ⟨b, rfl, rfl⟩ := takeByteOperand_ok h; rfl
  next ht => cases eq_ofNat_of_toNat ht; obtain ⟨k, rfl, rfl⟩ := takeKind_ok h; rfl
  next ht => cases eq_ofNat_of_toNat ht; obtain ⟨d, rfl, rfl⟩ := takeNat_ok h; rfl
  next => cases h

/-- Only the rows of R78 and R80 put a condition on an operand. -/
theorem wellFormed_of_encode_cmd {selector : Byte} {ops : List Operand} {i : Instr} (h : encode i = .cmd selector ops) :
    i.wellFormed = true := by
  cases i with
  | fmtNLif l => cases h
  | fmtALif x l => cases h
  | txhLong l => cases h
  | _ => rfl

theorem wellFormed_of_encode_event {tag : BitVec 2} {ops : List Operand} {i : Instr} (h : encode i = .event tag ops) :
    i.wellFormed = true := by
  cases i with
  | fmtNLif l => cases h
  | fmtALif x l => cases h
  | txhLong l => cases h
  | _ => rfl

/-- Settles O2, by the four formats of a packet. -/
theorem decodedPacketIsItsOperationsEncoding : Obligations.DecodedPacketIsItsOperationsEncoding := by
  intro p i h
  cases p with
  | wireRx b => cases h; exact ⟨encode_classify b, classify_wellFormed b⟩
  | wireTx header => exact decodeHeader_ok h
  | cmd selector ops =>
    have he := encode_of_decodeCommand h
    exact ⟨he, wellFormed_of_encode_cmd he⟩
  | event tag ops =>
    have he := encode_of_decodeEvent h
    exact ⟨he, wellFormed_of_encode_event he⟩

/-- Settles O3: the model evaluates each of the twelve words. -/
theorem wordsOfTheSpecDecode : Obligations.WordsOfTheSpecDecode :=
  ⟨rfl, rfl, rfl, rfl, rfl, rfl, rfl, rfl, rfl, rfl, rfl, rfl⟩

/-! ## The format byte by its two fields -/

theorem toNat_formatByte (a : BitVec 2) (l : BitVec 6) : (formatByte a l).toNat = 64 * a.toNat + l.toNat := by
  rw [formatByte, BitVec.toNat_append, Nat.shiftLeft_eq, Nat.mul_comm, ← Nat.two_pow_add_eq_or_of_lt l.isLt]

theorem toNat_fields (b : Byte) : b.toNat = 64 * (addressing b).toNat + (lengthInFormat b).toNat := by
  rw [← toNat_formatByte, formatByte_fields]

/-- A byte in the range of an addressing field is a format byte with that field (R71). -/
theorem exists_formatByte {b : Byte} (a : BitVec 2) (hlo : 64 * a.toNat ≤ b.toNat) (hhi : b.toNat ≤ 64 * a.toNat + 63) :
    ∃ l, b = formatByte a l := by
  have hb := toNat_fields b
  have hl := (lengthInFormat b).isLt
  have ha : addressing b = a := BitVec.eq_of_toNat_eq (by omega)
  exact ⟨lengthInFormat b, by rw [← ha, formatByte_fields]⟩

theorem ne_zero_of_formatByte {a : BitVec 2} {l : BitVec 6} (h : 64 * a.toNat < (formatByte a l).toNat) : l ≠ 0#6 := by
  rintro rfl
  simp [toNat_formatByte] at h

/-- A format byte without address bytes is its length field. -/
theorem formatByte_unaddressed (l : BitVec 6) : formatByte 0b00#2 l = l.zeroExtend 8 := by
  apply BitVec.eq_of_toNat_eq
  rw [toNat_formatByte, BitVec.toNat_setWidth, Nat.mod_eq_of_lt (by omega)]
  exact Nat.zero_add _

theorem formatByte_addressed (x : Bool) (l : BitVec 6) :
    formatByte (addressedField x) l = (if x then 0xC0#8 else 0x80#8) + l.zeroExtend 8 := by
  apply BitVec.eq_of_toNat_eq
  rw [toNat_formatByte]
  cases x <;> simp [addressedField] <;> omega

/-- `hlen(FMT)` of R75 by the fields. -/
theorem headerLength_formatByte (a : BitVec 2) (l : BitVec 6) : Machine.headerLength (formatByte a l) =
    1 + (if a.getLsbD 1 then 2 else 0) + (if l = 0#6 then 1 else 0) := by
  have hbit : (formatByte a l).getLsbD 7 = a.getLsbD 1 := by rw [formatByte, BitVec.getLsbD_append]; rfl
  rw [Machine.headerLength, hbit, lengthInFormat_formatByte]

@[simp] theorem addressedField_getLsbD_one (x : Bool) : (addressedField x).getLsbD 1 = true := by cases x <;> rfl

@[simp] theorem formatDataLength_formatByte (a : BitVec 2) (l : BitVec 6) :
    Machine.formatDataLength (formatByte a l) = l.zeroExtend 8 := by
  rw [Machine.formatDataLength, lengthInFormat_formatByte]

theorem toNat_formatDataLength_formatByte (a : BitVec 2) (l : BitVec 6) :
    (Machine.formatDataLength (formatByte a l)).toNat = (formatByte a l).toNat - 64 * a.toNat := by
  rw [formatDataLength_toNat, lengthInFormat_formatByte, toNat_formatByte, Nat.add_sub_cancel_left]

/-- Outside the range of the addressing field `01` the addressing mode is accepted (R72). -/
theorem badFormat_eq_false {b : Byte} (h : ¬ (0x40 ≤ b.toNat ∧ b.toNat ≤ 0x7F)) : Machine.badFormat b = false := by
  refine beq_false_of_ne fun ha => h ?_
  have hb := toNat_fields b
  have hl := (lengthInFormat b).isLt
  rw [ha, BitVec.toNat_ofNat] at hb
  omega

/-- Settles O4: each row's range is that of an addressing field, and its class, header length and data length are read from the two fields. -/
theorem firstByteTable : Obligations.FirstByteTable := by
  refine fun b => ⟨?_, ?_, ?_, ?_, ?_, ?_, badFormat_eq_false⟩
  · rintro rfl
    exact ⟨rfl, rfl⟩
  · rintro ⟨hlo, hhi⟩
    obtain ⟨l, rfl⟩ := exists_formatByte 0b00#2 (Nat.zero_le _) hhi
    have hl := ne_zero_of_formatByte (a := 0b00#2) hlo
    exact ⟨by rw [classify_fmtNLif l hl, lengthInFormat_formatByte], by simp [headerLength_formatByte, hl],
      toNat_formatDataLength_formatByte _ l⟩
  · rintro ⟨hlo, hhi⟩
    obtain ⟨l, rfl⟩ := exists_formatByte 0b01#2 hlo hhi
    exact ⟨by rw [classify_fmtBad, lengthInFormat_formatByte], by simp⟩
  · rintro (rfl | rfl)
    · exact ⟨rfl, rfl⟩
    · exact ⟨rfl, rfl⟩
  · rintro ⟨hlo, hhi⟩
    obtain ⟨l, rfl⟩ := exists_formatByte (addressedField false) (Nat.le_of_lt hlo) hhi
    have hl := ne_zero_of_formatByte (a := addressedField false) hlo
    exact ⟨by rw [classify_fmtALif false l hl, lengthInFormat_formatByte], by simp [headerLength_formatByte, hl],
      toNat_formatDataLength_formatByte _ l⟩
  · intro hlo
    obtain ⟨l, rfl⟩ := exists_formatByte (addressedField true) (Nat.le_of_lt hlo) (Nat.le_of_lt_succ b.isLt)
    have hl := ne_zero_of_formatByte (a := addressedField true) hlo
    exact ⟨by rw [classify_fmtALif true l hl, lengthInFormat_formatByte], by simp [headerLength_formatByte, hl],
      toNat_formatDataLength_formatByte _ l⟩

end Sys2Proof

/-! PROOFS. The machine at its encodings: a byte of any class is the byte fed (spec/42_frame_decoder.md R143, R152), a frame reset makes decoding total
(R148), the transmit headers go on the wire (spec/43_frame_encoder.md R165, R168), and a packet that stands for nothing is refused (spec/30_encoding.md R83). -/

namespace Sys2Proof.Machine

/-! ## Decoding from a reset frame -/

/-- Completeness needs the count of data bytes to include the checksum byte (spec/10_state.md R29). -/
theorem complete_eq_false_of_drx {f : Frame} (h : f.drx.toNat ≠ f.dlenExp.toNat + 1) : f.complete = false := by
  rw [← Bool.not_eq_true, complete_iff]
  exact fun ⟨_, _, hd⟩ => h hd

theorem complete_eq_false_of_no_data {f : Frame} (h : f.drx = 0#9) : f.complete = false :=
  complete_eq_false_of_drx (by simp [h])

theorem checkFrame_needMore {b : Byte} {f : Frame} (h : checkFrame b f = .needMore) : f.drx.toNat ≠ f.dlenExp.toNat + 1 := by
  intro hd
  rw [checkFrame, if_pos hd] at h
  split at h <;> cases h

/-- A frame that is not complete takes another byte (R148). -/
theorem exists_feed {f : Frame} (b : Byte) (hc : f.complete = false) : ∃ r g, feed b f = some (r, g) := by
  cases hf : feed b f with
  | none => simp [(feed_eq_none_iff b f).mp hf] at hc
  | some x => exact ⟨x.1, x.2, rfl⟩

/-- A feed that needs more leaves a frame that can be fed again. -/
theorem complete_of_feed_needMore {f g : Frame} {b : Byte} (hi : f.Inv) (h : feed b f = some (.needMore, g)) :
    g.complete = false := by
  obtain ⟨-, hcases⟩ := feed_cases h
  rcases hcases with ⟨-, -, hr, -⟩ | ⟨h0, -, -, rfl⟩ | ⟨-, hl, -, rfl⟩ | ⟨-, -, hr, rfl⟩
  case inl => cases hr
  case inr.inl =>
    obtain ⟨-, -, hdrx⟩ := hi.first_is_empty h0
    exact complete_eq_false_of_no_data (by rw [takeHeaderByte_drx]; exact hdrx)
  case inr.inr.inl => exact complete_eq_false_of_no_data (by rw [takeHeaderByte_drx, hi.drx_eq_zero hl])
  case inr.inr.inr => exact complete_eq_false_of_drx (checkFrame_needMore hr.symm)

theorem feedAll_cons_needMore {f g : Frame} {b : Byte} {w : List Byte} (h : feed b f = some (.needMore, g)) :
    feedAll (b :: w) f = (feedAll w g).map fun (r, k, n) => (r, k, n + 1) := by
  rw [feedAll, h]

/-- A result other than NeedMore ends a decoding. -/
theorem feedAll_cons_ends {f g : Frame} {b : Byte} {w : List Byte} {r : FeedResult} (h : feed b f = some (r, g))
    (hr : r ≠ .needMore) : feedAll (b :: w) f = some (r, g, 1) := by
  rw [feedAll, h]
  cases r with
  | needMore => exact absurd rfl hr
  | done => rfl
  | error c => rfl

/-- From a frame that is not complete, bytes are taken until a result other than NeedMore, and no feed is refused. -/
theorem feedAll_total (w : List Byte) (f : Frame) (hi : f.Inv) (hc : f.complete = false) :
    ∃ r g n, feedAll w f = some (r, g, n) ∧ n ≤ w.length ∧ (r = .needMore → n = w.length) := by
  induction w generalizing f with
  | nil => exact ⟨.needMore, f, 0, rfl, Nat.le_refl 0, fun _ => rfl⟩
  | cons b w ih =>
    obtain ⟨r, g, hf⟩ := exists_feed b hc
    by_cases hr : r = .needMore
    · subst hr
      obtain ⟨r, k, n, hw, hn, hall⟩ := ih g (hi.after_feed hf) (complete_of_feed_needMore hi hf)
      exact ⟨r, k, n + 1, by rw [feedAll_cons_needMore hf, hw]; rfl, Nat.succ_le_succ hn, fun h => congrArg (· + 1) (hall h)⟩
    · exact ⟨r, g, 1, feedAll_cons_ends hf hr, Nat.le_add_left 1 w.length, fun h => absurd h hr⟩

/-- Settles O33: a reset frame meets the invariant and is not complete, and each feed that needs more keeps both. -/
theorem decodeIsNeverRefused : Obligations.DecodeIsNeverRefused := fun w f =>
  feedAll_total w f.zeroCounts (zeroCounts_zero f).inv (complete_of_first rfl)

/-! ## The step on the packet it takes -/

/-- In RUN and PURGE the oldest input is taken. -/
theorem fetch_oldest {s : State} {i : Input} {rest : List Input} (hm : s.mode ≠ .hold) (hin : s.inputs = i :: rest) :
    fetch s = some (i, { s with inputs := rest }) := by
  cases hmode : s.mode with
  | hold => exact absurd hmode hm
  | run => simp only [fetch, hmode, hin]
  | purge => simp only [fetch, hmode, hin]

/-- In HOLD the oldest input that is no receive event is taken, and the events before it stay. -/
theorem fetch_past_events {s : State} {i : Input} {events rest : List Input} (hm : s.mode = .hold)
    (he : ∀ e ∈ events, e.isEvent = true) (hi : i.isEvent = false) (hin : s.inputs = events ++ i :: rest) :
    fetch s = some (i, { s with inputs := events ++ rest }) := by
  simp only [fetch, hm, hin, takeHostInput_append events i rest he hi]

theorem step_of_fetch {s t : State} {i : Input} (h : fetch s = some (i, t)) : step s = runInput i t := by
  rw [step, h]

theorem runInput_undecodable {p : Packet} {e : DecodeError} (h : decode p = .error e) (s : State) :
    runInput (.packet p) s = .refused (.undecodable e) := by
  rw [runInput, h]

/-- Settles O6: whichever input the mode takes, running a packet that does not decode is a refusal with the decoder's reason. -/
theorem undecodablePacketIsRefused : Obligations.UndecodablePacketIsRefused := by
  refine ⟨fun s p e rest hm hin hd => ?_, fun s p e events rest hm hev hp hin hd => ?_⟩
  · rw [step_of_fetch (fetch_oldest hm hin), runInput_undecodable hd]
  · rw [step_of_fetch (fetch_past_events hm hev hp hin), runInput_undecodable hd]

/-! ## The classes of a frame's first byte -/

/-- An operation of the format WIRE-RX is the decoder fed with its byte. -/
theorem exec_of_encode_wireRx {i : Instr} {b : Byte} (h : encode i = .wireRx b) (s : State) : exec i s = feedOp b s := by
  cases i with
  | fmtBad x => cases h; rfl
  | fmtNLb => cases h; rfl
  | fmtALb x => cases h; rfl
  | fmtNLif l => cases h; rfl
  | fmtALif x l => cases h; rfl
  | _ => cases h

/-- Settles O27: the class of a byte is encoded by that byte, and runs as the decoder fed with it. -/
theorem classifiedByteIsFed : Obligations.ClassifiedByteIsFed := fun b s => exec_of_encode_wireRx (encode_classify b) s

/-- A feed without a checksum comparison leaves the accumulator alone. -/
theorem feedOp_of_no_sum {s : State} {g : Frame} {b : Byte} {r : FeedResult} (h : feed b s.frame = some (r, g))
    (hr : r.usesSum = false) : feedOp b s = .next { s with
      frame := g, trace := s.trace ++ [.result (.feed r)], owesResync := r.isError && s.mode == .run } := by
  obtain ⟨t, ht, -, hframe, hacc⟩ := feedOp_eq h
  obtain ⟨hacc8, hfresh⟩ := hacc hr
  rw [hacc8, hfresh] at hframe
  rw [ht, hframe]

/-- A rejected first byte (R143): the result alone is recorded, and in RUN a resynchronization is owed. -/
theorem feedOp_badFormat {s : State} {b : Byte} (h0 : s.frame.hrx = 0#3) (hb : badFormat b = true) :
    feedOp b s = .next { s with
      trace := s.trace ++ [.result (.feed (.error .eFmt))], owesResync := s.mode == .run } := by
  rw [feedOp_of_no_sum (feed_badFormat h0 hb) rfl, FeedResult.isError, Bool.true_and]

/-- An accepted first byte by its two fields (R143, R144). -/
theorem feedOp_formatByte {s : State} {a : BitVec 2} (l : BitVec 6) (h0 : s.frame.hrx = 0#3) (ha : a ≠ 0b01#2) :
    feedOp (formatByte a l) s = .next { s with
      trace := s.trace ++ [.result (.feed .needMore)], owesResync := false
      frame := { s.frame with
        hlenExp := BitVec.ofNat 3 (1 + (if a.getLsbD 1 then 2 else 0) + (if l = 0#6 then 1 else 0))
        dlenExp := if l = 0#6 then s.frame.dlenExp else l.zeroExtend 8
        hrx := 1#3
        hbuf := s.frame.hbuf.set 0 (formatByte a l) } } := by
  have hb : badFormat (formatByte a l) = false := by rw [badFormat_formatByte]; exact beq_false_of_ne ha
  rw [feedOp_of_no_sum (feed_first h0 hb) rfl, takeHeaderByte_startFrame _ _ h0, headerLength_formatByte,
    lengthInFormat_formatByte, formatDataLength_formatByte]
  rfl

theorem addressedField_ne_bad (x : Bool) : addressedField x ≠ 0b01#2 := by cases x <;> decide

/-- An operation that goes on to a known state with the memory it had. -/
theorem exists_next_sameMemory {o : Host.Outcome State Fault Refusal} {s u : State} (ho : o = .next u) (hm : u.mem = s.mem) :
    ∃ t, o = .next t ∧ SameMemory s t ∧ t = u := ⟨u, ho, .of_mem_eq hm, rfl⟩

/-- Settles O26: the rejected class records its error, and the others are the format byte taken by its two fields. -/
theorem firstByteClassesAtTheFirstByte : Obligations.FirstByteClassesAtTheFirstByte := by
  refine ⟨fun x s h0 => exists_next_sameMemory ?_ rfl, fun s h0 => exists_next_sameMemory ?_ rfl,
    fun x s h0 => exists_next_sameMemory ?_ rfl, fun l s hl h0 => exists_next_sameMemory ?_ rfl,
    fun x l s hl h0 => exists_next_sameMemory ?_ rfl⟩
  · exact feedOp_badFormat h0 (by simp)
  · exact feedOp_formatByte 0#6 h0 (by decide)
  · refine (feedOp_formatByte 0#6 h0 (addressedField_ne_bad x)).trans ?_
    simp [formatByte_addressed]
  · refine (feedOp_formatByte l h0 (by decide)).trans ?_
    simp [formatByte_unaddressed, hl]
  · refine (feedOp_formatByte l h0 (addressedField_ne_bad x)).trans ?_
    simp [formatByte_addressed, hl]

/-! ## The transmit headers -/

/-- A transmission as one update of the state (spec/43_frame_encoder.md R165, R166). -/
theorem transmit_eq (bs : List Byte) (s : State) : transmit bs s = { s with
    rxen := true, trace := s.trace ++ (.rxen false :: bs.map .txByte ++ [.awaitLastBit, .rxen true]) } := rfl

theorem exec_txhShort_hold {s : State} (l : BitVec 6) (hm : s.mode = .hold) :
    exec (.txhShort l) s = .next (transmit [l.zeroExtend 8] s) := by
  rw [← formatByte_unaddressed]
  exact if_neg (not_not.mpr hm)

theorem exec_txhShort_refused {s : State} (l : BitVec 6) (hm : s.mode ≠ .hold) :
    exec (.txhShort l) s = .refused .sendOutsideHold := if_pos hm

theorem exec_txhLong_hold {s : State} {l : Byte} (hm : s.mode = .hold) (hl : 64 ≤ l.toNat) :
    exec (.txhLong l) s = .next (transmit [0x00#8, l] s) :=
  (if_neg (not_not.mpr hm)).trans (if_neg (Nat.not_le.mpr hl))

theorem exec_txhLong_short {s : State} {l : Byte} (hm : s.mode = .hold) (hl : l.toNat < 64) :
    exec (.txhLong l) s = .refused .shortLengthInLongHeader :=
  (if_neg (not_not.mpr hm)).trans (if_pos (Nat.le_of_lt_succ hl))

theorem exec_txhLong_refused {s : State} (l : Byte) (hm : s.mode ≠ .hold) :
    exec (.txhLong l) s = .refused .sendOutsideHold := if_pos hm

/-- Settles O40: each header is a transmission of its own bytes in HOLD, and each refusal is the first condition that fails. -/
theorem transmitHeadersGoOnTheWire : Obligations.TransmitHeadersGoOnTheWire := by
  refine ⟨fun l s hm => exists_next_sameMemory ?_ rfl, fun l s hm hl => exists_next_sameMemory ?_ rfl,
    fun l s hm => exec_txhShort_refused l hm, fun l s hm => exec_txhLong_refused l hm, fun l s hm hl => exec_txhLong_short hm hl⟩
  · rw [exec_txhShort_hold l hm, transmit_eq]; rfl
  · rw [exec_txhLong_hold hm hl, transmit_eq]; rfl

end Sys2Proof.Machine

/-! PROOFS. The checksum unit (spec/40_checksums.md): both sums are functions of the true sum of the bytes, the natural number of R101 and R103, and
what the chapter says of them is arithmetic on it. -/

namespace Sys2Proof.Machine

/-! ## The true sum of the bytes -/

theorem trueSum_eq_zero_iff (bs : List Byte) : (bs.map BitVec.toNat).sum = 0 ↔ ∀ b ∈ bs, b = 0#8 := by
  simp [List.sum_eq_zero_iff, ← BitVec.toNat_inj]

theorem trueSum_ne_zero_iff (bs : List Byte) : (bs.map BitVec.toNat).sum ≠ 0 ↔ ∃ b ∈ bs, b ≠ 0#8 := by
  simp [trueSum_eq_zero_iff]

/-- One byte of a sequence apart from the others. -/
theorem trueSum_middle (before after : List Byte) (x : Byte) :
    ((before ++ x :: after).map BitVec.toNat).sum = ((before ++ after).map BitVec.toNat).sum + x.toNat := by
  simp only [List.map_append, List.map_cons, List.sum_append, List.sum_cons]
  omega

/-! ## Both sums in the true sum -/

/-- SUM8 of two sequences compares their true sums modulo 256 (R101). -/
theorem sum8_eq_iff (s t : List Byte) :
    sum8 s = sum8 t ↔ (s.map BitVec.toNat).sum % 256 = (t.map BitVec.toNat).sum % 256 := by
  rw [← BitVec.toNat_inj, sum8_toNat, sum8_toNat]

/-- The residue of a sum modulo 255 that the end-around carry leaves: zero for a zero sum only, else 1 to 255 (R103 a). -/
def carriedSum (n : Nat) : Nat := if n = 0 then 0 else (n - 1) % 255 + 1

@[simp] theorem carriedSum_zero : carriedSum 0 = 0 := rfl

theorem carriedSum_pos {n : Nat} (h : n ≠ 0) : carriedSum n = (n - 1) % 255 + 1 := if_neg h

theorem carriedSum_of_le {n : Nat} (h : n ≤ 255) : carriedSum n = n := by
  unfold carriedSum; split <;> omega

theorem carriedSum_mod (n : Nat) : carriedSum n % 255 = n % 255 := by
  unfold carriedSum; split <;> omega

/-- One end-around addition carries the sum on. -/
theorem addEndAround_carriedSum {acc : Byte} {n : Nat} (h : acc.toNat = carriedSum n) (b : Byte) :
    (addEndAround acc b).toNat = carriedSum (n + b.toNat) := by
  have hb := b.isLt
  rw [addEndAround_toNat, h]
  unfold carriedSum
  split_ifs <;> omega

/-- A running SUMC8 from an accumulator that stands for a sum. -/
theorem foldl_addEndAround_toNat (bs : List Byte) {acc : Byte} {n : Nat} (h : acc.toNat = carriedSum n) :
    (bs.foldl addEndAround acc).toNat = carriedSum (n + (bs.map BitVec.toNat).sum) := by
  induction bs generalizing acc n with
  | nil => exact h
  | cons b rest ih => rw [List.foldl_cons, ih (addEndAround_carriedSum h b), List.map_cons, List.sum_cons, Nat.add_assoc]

/-- SUMC8 in the true sum of the bytes (R103 a). -/
theorem sumc8_toNat (bs : List Byte) : (sumc8 bs).toNat = carriedSum (bs.map BitVec.toNat).sum := by
  rw [sumc8, foldl_addEndAround_toNat bs (n := 0) rfl, Nat.zero_add]

theorem sumc8_eq_iff (s t : List Byte) :
    sumc8 s = sumc8 t ↔ carriedSum (s.map BitVec.toNat).sum = carriedSum (t.map BitVec.toNat).sum := by
  rw [← BitVec.toNat_inj, sumc8_toNat, sumc8_toNat]

/-- SUMC8 against a byte, by the true sum: what VSUMC8 decides (R105). -/
theorem sumc8_eq_byte_iff (bs : List Byte) (e : Byte) : sumc8 bs = e ↔
    if (bs.map BitVec.toNat).sum = 0 then e = 0#8 else e ≠ 0#8 ∧ e.toNat % 255 = (bs.map BitVec.toNat).sum % 255 := by
  have he := e.isLt
  have hzero : e = 0#8 ↔ e.toNat = 0 := BitVec.toNat_inj.symm
  rw [← BitVec.toNat_inj, sumc8_toNat, Ne, hzero]
  unfold carriedSum
  split <;> omega

theorem sumc8_eq_sum8_iff (bs : List Byte) :
    sumc8 bs = sum8 bs ↔ carriedSum (bs.map BitVec.toNat).sum = (bs.map BitVec.toNat).sum % 256 := by
  rw [← BitVec.toNat_inj, sumc8_toNat, sum8_toNat]

/-! ## The operations -/

/-- A checksum operation records its result and spends the accumulator (spec/10_state.md R38). -/
theorem putsAndSums_answer (r : Result) (s : State) : PutsAndSums [.result r] s (spendAcc8 (s.answer r)) :=
  ⟨rfl, .of_mem_eq rfl⟩

theorem exec_sum8 (bs : List Byte) (s : State) : exec (.sum8 bs) s = .next (spendAcc8 (s.answer (.byte (sum8 bs)))) := rfl

theorem exec_sumc8 (bs : List Byte) (s : State) : exec (.sumc8 bs) s = .next (spendAcc8 (s.answer (.byte (sumc8 bs)))) := rfl

theorem exec_vsum8 (bs : List Byte) (e : Byte) (s : State) :
    exec (.vsum8 bs e) s = .next (spendAcc8 (s.answer (.bool (sum8 bs == e)))) := rfl

theorem exec_vsumc8 (bs : List Byte) (e : Byte) (s : State) :
    exec (.vsumc8 bs e) s = .next (spendAcc8 (s.answer (.bool (sumc8 bs == e)))) := rfl

/-- Settles O8: the recorded byte is SUM8, which is the true sum modulo 256. -/
theorem sum8GivesTheSumModulo256 : Obligations.Sum8GivesTheSumModulo256 := by
  intro bs s
  have hsum : sum8 bs = BitVec.ofNat 8 (bs.map BitVec.toNat).sum := by
    apply BitVec.eq_of_toNat_eq
    rw [sum8_toNat, BitVec.toNat_ofNat]
  rw [exec_sum8, hsum]
  exact ⟨_, rfl, putsAndSums_answer _ s⟩

/-- Settles O9: the recorded byte is SUMC8, and the end-around carry keeps the true sum modulo 255, giving zero for a zero sum only. -/
theorem sumc8GivesTheSumModulo255 : Obligations.Sumc8GivesTheSumModulo255 := by
  intro bs s
  refine ⟨sumc8 bs, _, exec_sumc8 bs s, putsAndSums_answer _ s, fun hall => ?_, fun hsome => ?_⟩
  · rw [sumc8_eq_byte_iff, if_pos ((trueSum_eq_zero_iff bs).mpr hall)]
  · have hbyte := (sumc8_eq_byte_iff bs (sumc8 bs)).mp rfl
    rwa [if_neg ((trueSum_ne_zero_iff bs).mpr hsome)] at hbyte

/-- Settles O10: the recorded truth value compares SUM8, which is the true sum modulo 256. -/
theorem vsum8ComparesTheSum : Obligations.Vsum8ComparesTheSum := by
  intro bs e s
  have hcompare : (sum8 bs == e) = decide ((bs.map BitVec.toNat).sum % 256 = e.toNat) := by
    rw [Bool.eq_iff_iff, beq_iff_eq, decide_eq_true_iff, ← BitVec.toNat_inj, sum8_toNat]
  rw [exec_vsum8, hcompare]
  exact ⟨_, rfl, putsAndSums_answer _ s⟩

/-- Settles O11: the recorded truth value compares SUMC8, which the true sum determines. -/
theorem vsumc8ComparesTheSum : Obligations.Vsumc8ComparesTheSum := by
  intro bs e s
  have hcompare : (sumc8 bs == e) = if (bs.map BitVec.toNat).sum = 0 then e == 0#8
      else e != 0#8 && e.toNat % 255 == (bs.map BitVec.toNat).sum % 255 := by
    rw [Bool.eq_iff_iff, beq_iff_eq, sumc8_eq_byte_iff]
    split <;> simp
  rw [exec_vsumc8, hcompare]
  exact ⟨_, rfl, putsAndSums_answer _ s⟩

/-! ## What the two sums tell apart -/

/-- Settles O12: the true sum does not depend on the order, and both sums are functions of it. -/
theorem sumsIgnoreTheOrder : Obligations.SumsIgnoreTheOrder := by
  intro s t hperm
  have hsum : (s.map BitVec.toNat).sum = (t.map BitVec.toNat).sum := (hperm.map BitVec.toNat).sum_eq
  exact ⟨(sum8_eq_iff s t).mpr (by rw [hsum]), (sumc8_eq_iff s t).mpr (by rw [hsum])⟩

/-- Two bytes that differ carry a sum to the same residue only as 0 and 255, which are congruent modulo 255, beside a nonzero rest. -/
theorem carriedSum_add_eq_iff (n : Nat) {x y : Nat} (hx : x < 256) (hy : y < 256) (hne : x ≠ y) :
    carriedSum (n + x) = carriedSum (n + y) ↔ (x = 0 ∧ y = 255 ∨ x = 255 ∧ y = 0) ∧ n ≠ 0 := by
  by_cases hn : n = 0
  · rw [hn, Nat.zero_add, Nat.zero_add, carriedSum_of_le (Nat.le_of_lt_succ hx), carriedSum_of_le (Nat.le_of_lt_succ hy)]
    omega
  · rw [carriedSum_pos (by omega), carriedSum_pos (by omega)]
    omega

/-- One changed byte always changes SUM8 (R101 e). -/
theorem sum8_changed_byte (before after : List Byte) {x y : Byte} (hne : x ≠ y) :
    sum8 (before ++ x :: after) ≠ sum8 (before ++ y :: after) := by
  have hx := x.isLt
  have hy := y.isLt
  have hnat : x.toNat ≠ y.toNat := BitVec.toNat_ne_iff_ne.mpr hne
  rw [Ne, sum8_eq_iff, trueSum_middle, trueSum_middle]
  omega

/-- Settles O13: the changed byte is added to the same rest, modulo 256 for SUM8 and by the end-around carry for SUMC8. -/
theorem oneChangedByteInTheSums : Obligations.OneChangedByteInTheSums := by
  intro before after x y hne
  refine ⟨sum8_changed_byte before after hne, ?_⟩
  rw [sumc8_eq_iff, trueSum_middle, trueSum_middle,
    carriedSum_add_eq_iff _ x.isLt y.isLt (BitVec.toNat_ne_iff_ne.mpr hne), trueSum_ne_zero_iff]
  simp [← BitVec.toNat_inj]

/-- Refutes O14: 256 bytes 0xFF and one byte 0x01 have the true sum 65281, and both sums are 0x01. -/
theorem not_sumsAgreeExactlyBelow256 : ¬ Obligations.SumsAgreeExactlyBelow256 := by
  intro h
  have hsum : ((List.replicate 256 0xFF#8 ++ [0x01#8]).map BitVec.toNat).sum = 65281 := by
    rw [List.map_append, List.sum_append, List.map_replicate, List.sum_replicate]
    rfl
  have hiff := h (List.replicate 256 0xFF#8 ++ [0x01#8])
  rw [sumc8_eq_sum8_iff, hsum] at hiff
  exact absurd (hiff.mp rfl) (by decide)

/-- Settles O15: up to 255 neither sum is reduced; above, they differ until the multiples of 255 and of 256 taken away meet again, past 65280. -/
theorem sumsAgreeBelow256 : Obligations.SumsAgreeBelow256 := by
  intro bs
  rw [Ne, sumc8_eq_sum8_iff]
  refine ⟨fun hlt => ?_, fun ⟨hlo, hhi⟩ => ?_⟩
  · rw [carriedSum_of_le (Nat.le_of_lt_succ hlt), Nat.mod_eq_of_lt hlt]
  · rw [carriedSum_pos (by omega)]
    omega

end Sys2Proof.Machine

/-! PROOFS. A corrupted frame (spec/40_checksums.md R107). Where the decoder stands in a frame depends on the lengths alone, so two byte strings that
announce the same lengths reach the checksum byte together; and that byte is compared with the sum of all the bytes taken before it. -/

namespace Sys2Proof.Machine

/-! ## The fields of a frame after one byte -/

@[simp] theorem takeHeaderByte_hbuf (b : Byte) (f : Frame) :
    (takeHeaderByte b f).hbuf = f.hbuf.setIfInBounds f.hrx.toNat b := by
  simp only [takeHeaderByte]; split <;> rfl
@[simp] theorem takeHeaderByte_pbuf (b : Byte) (f : Frame) : (takeHeaderByte b f).pbuf = f.pbuf := by
  simp only [takeHeaderByte]; split <;> rfl
@[simp] theorem takeDataByte_hbuf (b : Byte) (f : Frame) : (takeDataByte b f).hbuf = f.hbuf := rfl
@[simp] theorem takeDataByte_pbuf (b : Byte) (f : Frame) :
    (takeDataByte b f).pbuf = f.pbuf.setIfInBounds f.drx.toNat b := rfl
@[simp] theorem takeDataByte_format (b : Byte) (f : Frame) : (takeDataByte b f).format = f.format := rfl

/-- Past the first byte the format byte stays in its place. -/
theorem setIfInBounds_format {f : Frame} (b : Byte) (h0 : f.hrx ≠ 0#3) : (f.hbuf.setIfInBounds f.hrx.toNat b)[0] = f.format := by
  have hne : f.hrx.toNat ≠ 0 := fun h => h0 (BitVec.eq_of_toNat_eq h)
  rw [Vector.getElem_setIfInBounds, if_neg hne, Frame.format]

theorem takeHeaderByte_format {f : Frame} (b : Byte) (h0 : f.hrx ≠ 0#3) : (takeHeaderByte b f).format = f.format := by
  rw [Frame.format, ← setIfInBounds_format b h0]
  simp only [takeHeaderByte_hbuf]

/-- The next byte is the length byte: the last of a header whose format byte carries no length (spec/42_frame_decoder.md R145). -/
def Frame.lengthByteDue (f : Frame) : Bool :=
  decide (f.hrx < f.hlenExp ∧ f.hrx + 1#3 = f.hlenExp ∧ lengthInFormat f.format = 0#6)

/-- A later header byte is the data length exactly where the length byte is due (R145). -/
theorem takeHeaderByte_dlenExp {f : Frame} (b : Byte) (h0 : f.hrx ≠ 0#3) (hl : f.hrx < f.hlenExp) :
    (takeHeaderByte b f).dlenExp = if f.lengthByteDue then b else f.dlenExp := by
  have hformat := setIfInBounds_format b h0
  simp only [Frame.format] at hformat
  simp only [takeHeaderByte, Frame.lengthByteDue, Frame.format, hformat, hl, true_and, decide_eq_true_eq]
  split <;> rfl

theorem hrx_add_one_ne_zero {f : Frame} (h : f.hrx < f.hlenExp) : f.hrx + 1#3 ≠ 0#3 := fun h0 => by
  have hsucc := hrx_add_one_toNat h
  simp [h0] at hsucc

/-! ## The bytes a frame has taken -/

/-- The bytes taken since the frame reset, as the buffers hold them (spec/10_state.md R25, R26). -/
def Frame.received (f : Frame) : List Byte := f.hbuf.toList.take f.hrx.toNat ++ f.pbuf.toList.take f.drx.toNat

@[simp] theorem received_zeroCounts (f : Frame) : f.zeroCounts.received = [] := rfl

/-- A byte stored behind the first `i` bytes of a buffer. -/
theorem take_setIfInBounds {n i : Nat} (v : Vector Byte n) (b : Byte) (hi : i < n) :
    (v.setIfInBounds i b).toList.take (i + 1) = v.toList.take i ++ [b] := by
  rw [Vector.toList_setIfInBounds, List.take_add_one, List.take_set_of_le (Nat.le_refl i)]
  simp [hi]

theorem received_takeHeaderByte {f : Frame} (b : Byte) (h4 : f.hlenExp.toNat ≤ 4) (hl : f.hrx < f.hlenExp) (hdrx : f.drx = 0#9) :
    (takeHeaderByte b f).received = f.received ++ [b] := by
  have hplace : f.hrx.toNat < 4 := Nat.lt_of_lt_of_le hl h4
  simp only [Frame.received, takeHeaderByte_hbuf, takeHeaderByte_pbuf, takeHeaderByte_hrx, takeHeaderByte_drx,
    hrx_add_one_toNat hl, take_setIfInBounds f.hbuf b hplace, hdrx, BitVec.toNat_ofNat, Nat.zero_mod, List.take_zero, List.append_nil]

theorem received_takeDataByte {f : Frame} (b : Byte) (hd : f.drx.toNat ≤ f.dlenExp.toNat) :
    (takeDataByte b f).received = f.received ++ [b] := by
  have hplace : f.drx.toNat < 256 := Nat.lt_of_le_of_lt hd f.dlenExp.isLt
  simp only [Frame.received, takeDataByte_hbuf, takeDataByte_pbuf, takeDataByte_hrx, takeDataByte_drx,
    drx_add_one_toNat hd, take_setIfInBounds f.pbuf b hplace, List.append_assoc]

/-- A feed that rejects no first byte stores the byte behind those taken before (R144, R146). -/
theorem received_after_feed {f g : Frame} {b : Byte} {r : FeedResult} (hi : f.Inv) (h : feed b f = some (r, g))
    (hr : r ≠ .error .eFmt) : g.received = f.received ++ [b] := by
  obtain ⟨hc, hcases⟩ := feed_cases h
  rcases hcases with ⟨-, -, hfmt, -⟩ | ⟨h0, -, -, rfl⟩ | ⟨-, hl, -, rfl⟩ | ⟨h0, hl, -, rfl⟩
  case inl => exact absurd hfmt hr
  case inr.inl =>
    obtain ⟨-, -, hdrx⟩ := hi.first_is_empty h0
    have h4 : (startFrame b f).hlenExp.toNat ≤ 4 := (startFrame_hlenExp_toNat b f).trans_le (headerLength_range b).2
    exact received_takeHeaderByte b h4 (startFrame_pending b f h0) hdrx
  case inr.inr.inl => exact received_takeHeaderByte b hi.header_legal hl (hi.drx_eq_zero hl)
  case inr.inr.inr => exact received_takeDataByte b (hi.drx_le_dlenExp h0 (hi.hrx_eq_hlenExp hl) hc)

/-! ## Bytes that all answer NeedMore -/

/-- From `f` the bytes are taken one after another, each answering NeedMore, and leave `g`. -/
inductive TakesAll : Frame → List Byte → Frame → Prop where
  | nil (f : Frame) : TakesAll f [] f
  | cons {f g h : Frame} {b : Byte} {w : List Byte} (hb : feed b f = some (.needMore, g)) (hw : TakesAll g w h) :
    TakesAll f (b :: w) h

theorem TakesAll.append {f g h : Frame} {u w : List Byte} (hu : TakesAll f u g) (hw : TakesAll g w h) : TakesAll f (u ++ w) h := by
  induction hu with
  | nil f => exact hw
  | cons hb _ ih => exact .cons hb (ih hw)

theorem TakesAll.of_append {f h : Frame} {u w : List Byte} (ht : TakesAll f (u ++ w) h) : ∃ g, TakesAll f u g ∧ TakesAll g w h := by
  induction u generalizing f with
  | nil => exact ⟨f, .nil f, ht⟩
  | cons b u ih =>
    cases ht with
    | cons hb hw =>
      obtain ⟨g, hu, hg⟩ := ih hw
      exact ⟨g, .cons hb hu, hg⟩

/-- Decoding goes on behind the bytes that answered NeedMore. -/
theorem TakesAll.feedAll_append {f g : Frame} {u : List Byte} (hu : TakesAll f u g) (w : List Byte) :
    feedAll (u ++ w) f = (feedAll w g).map fun (r, k, n) => (r, k, n + u.length) := by
  induction hu with
  | nil f => simp
  | cons hb _ ih =>
    rw [List.cons_append, feedAll_cons_needMore hb, ih, Option.map_map]
    rfl

/-- A decoding that ends on the last byte has taken every byte before it. -/
theorem takesAll_of_feedAll {u : List Byte} {c : Byte} {f k : Frame} {r : FeedResult} (hr : r ≠ .needMore)
    (h : feedAll (u ++ [c]) f = some (r, k, u.length + 1)) : ∃ g, TakesAll f u g ∧ feed c g = some (r, k) := by
  induction u generalizing f with
  | nil =>
    refine ⟨f, .nil f, ?_⟩
    rw [List.nil_append, feedAll] at h
    split at h
    next => cases h
    next => cases h; exact absurd rfl hr
    next hf => cases h; exact hf
    next hf => cases h; exact hf
  | cons b u ih =>
    rw [List.cons_append, feedAll] at h
    split at h
    next => cases h
    next g hf =>
      obtain ⟨⟨r', k', n⟩, hg, heq⟩ := Option.map_eq_some_iff.mp h
      cases heq
      obtain ⟨g', hu, hc⟩ := ih hg
      exact ⟨g', .cons hf hu, hc⟩
    next => cases h
    next => cases h

/-- What the bytes taken leave: the invariant, and themselves behind those taken before. -/
theorem TakesAll.received {f g : Frame} {u : List Byte} (hu : TakesAll f u g) (hi : f.Inv) :
    g.Inv ∧ g.received = f.received ++ u := by
  induction hu with
  | nil f => exact ⟨hi, (List.append_nil _).symm⟩
  | cons hb _ ih =>
    obtain ⟨hinv, hrec⟩ := ih (hi.after_feed hb)
    exact ⟨hinv, by rw [hrec, received_after_feed hi hb (by decide), List.append_assoc, List.singleton_append]⟩

/-! ## Two frames at the same place -/

/-- The two frames announce the same lengths and have taken as many bytes. -/
structure SameShape (f f' : Frame) : Prop where
  hlenExp : f'.hlenExp = f.hlenExp
  dlenExp : f'.dlenExp = f.dlenExp
  hrx : f'.hrx = f.hrx
  drx : f'.drx = f.drx
  format : lengthInFormat f'.format = lengthInFormat f.format

theorem SameShape.refl (f : Frame) : SameShape f f := ⟨rfl, rfl, rfl, rfl, rfl⟩

section SameShape

variable {f f' g : Frame} {b b' : Byte}

theorem SameShape.lengthByteDue (hs : SameShape f f') : f'.lengthByteDue = f.lengthByteDue := by
  simp only [Frame.lengthByteDue, hs.hlenExp, hs.hrx, hs.format]

theorem SameShape.complete (hs : SameShape f f') : f'.complete = f.complete := by
  simp only [Frame.complete, Frame.headerComplete, hs.hlenExp, hs.dlenExp, hs.hrx, hs.drx]

/-- After step 2 the frames differ in no length, unless they took different length bytes. -/
theorem SameShape.takeHeaderByte (hs : SameShape f f') (h0 : f.hrx ≠ 0#3) (hl : f.hrx < f.hlenExp)
    (hb : f.lengthByteDue = true → b' = b) : SameShape (takeHeaderByte b f) (takeHeaderByte b' f') where
  hlenExp := by simp [hs.hlenExp]
  dlenExp := by
    rw [takeHeaderByte_dlenExp b h0 hl, takeHeaderByte_dlenExp b' (hs.hrx ▸ h0) (by rw [hs.hrx, hs.hlenExp]; exact hl),
      hs.lengthByteDue, hs.dlenExp]
    split
    next hdue => exact hb hdue
    next => rfl
  hrx := by simp [hs.hrx]
  drx := by simp [hs.drx]
  format := by rw [takeHeaderByte_format b h0, takeHeaderByte_format b' (hs.hrx ▸ h0), hs.format]

theorem SameShape.takeDataByte (hs : SameShape f f') : SameShape (takeDataByte b f) (takeDataByte b' f') where
  hlenExp := hs.hlenExp
  dlenExp := hs.dlenExp
  hrx := hs.hrx
  drx := by simp [hs.drx]
  format := hs.format

/-- More bytes are needed exactly while the checksum byte is still to come. -/
theorem checkFrame_eq_needMore_iff : checkFrame b f = .needMore ↔ f.drx.toNat ≠ f.dlenExp.toNat + 1 :=
  ⟨checkFrame_needMore, fun h => if_neg h⟩

/-- Two frames at the same place stay so under any two bytes, but for two different length bytes. -/
theorem SameShape.feed (hs : SameShape f f') (h0 : f.hrx ≠ 0#3) (hb : f.lengthByteDue = true → b' = b)
    (h : Machine.feed b f = some (.needMore, g)) :
    ∃ g', Machine.feed b' f' = some (.needMore, g') ∧ SameShape g g' ∧ g.hrx ≠ 0#3 := by
  have h0' : f'.hrx ≠ 0#3 := hs.hrx ▸ h0
  have hlt : f'.hrx < f'.hlenExp ↔ f.hrx < f.hlenExp := by rw [hs.hrx, hs.hlenExp]
  obtain ⟨hc, hcases⟩ := feed_cases h
  rcases hcases with ⟨hfirst, -⟩ | ⟨hfirst, -⟩ | ⟨-, hl, -, rfl⟩ | ⟨-, hl, hr, rfl⟩
  case inl => exact absurd hfirst h0
  case inr.inl => exact absurd hfirst h0
  case inr.inr.inl =>
    exact ⟨_, feed_header h0' (hlt.mpr hl), hs.takeHeaderByte h0 hl hb, by
      rw [takeHeaderByte_hrx]; exact hrx_add_one_ne_zero hl⟩
  case inr.inr.inr =>
    have hs' : SameShape (Machine.takeDataByte b f) (Machine.takeDataByte b' f') := hs.takeDataByte
    have hmore : checkFrame b' (Machine.takeDataByte b' f') = .needMore := by
      rw [checkFrame_eq_needMore_iff, hs'.drx, hs'.dlenExp]
      exact checkFrame_needMore hr.symm
    refine ⟨_, ?_, hs', h0⟩
    rw [feed_data (hs.complete.trans hc) h0' (mt hlt.mp hl), hmore]

/-- Two frames at the same place take the same bytes to the same place. -/
theorem SameShape.takesAll {w : List Byte} (hw : TakesAll f w g) (hs : SameShape f f') (h0 : f.hrx ≠ 0#3) :
    ∃ g', TakesAll f' w g' ∧ SameShape g g' := by
  induction hw generalizing f' with
  | nil f => exact ⟨f', .nil f', hs⟩
  | cons hb _ ih =>
    obtain ⟨k, hk, hsk, hk0⟩ := hs.feed h0 (fun _ => rfl) hb
    obtain ⟨g', hw', hs'⟩ := ih hsk hk0
    exact ⟨g', .cons hk hw', hs'⟩

end SameShape

/-! ## The first byte -/

/-- The frame holds this format byte and expects the header it announces (R143). -/
structure Frame.Begun (fmt : Byte) (f : Frame) : Prop where
  hrx_ne_zero : f.hrx ≠ 0#3
  hlenExp_eq : f.hlenExp.toNat = headerLength fmt
  format_eq : f.format = fmt

theorem begun_after_first_byte {f : Frame} (fmt : Byte) (h0 : f.hrx = 0#3) :
    (takeHeaderByte fmt (startFrame fmt f)).Begun fmt where
  hrx_ne_zero := by rw [takeHeaderByte_hrx]; exact hrx_add_one_ne_zero (startFrame_pending fmt f h0)
  hlenExp_eq := by rw [takeHeaderByte_hlenExp, startFrame_hlenExp_toNat]
  format_eq := by simp [takeHeaderByte_startFrame fmt f h0, Frame.format]

theorem Frame.Begun.after_feed {f g : Frame} {fmt b : Byte} {r : FeedResult} (hf : f.Begun fmt) (h : feed b f = some (r, g)) :
    g.Begun fmt := by
  obtain ⟨h0, hlen, hformat⟩ := hf
  obtain ⟨-, hcases⟩ := feed_cases h
  rcases hcases with ⟨hfirst, -⟩ | ⟨hfirst, -⟩ | ⟨-, hl, -, rfl⟩ | ⟨-, -, -, rfl⟩
  case inl => exact absurd hfirst h0
  case inr.inl => exact absurd hfirst h0
  case inr.inr.inl =>
    exact ⟨by rw [takeHeaderByte_hrx]; exact hrx_add_one_ne_zero hl, by rw [takeHeaderByte_hlenExp, hlen],
      by rw [takeHeaderByte_format b h0, hformat]⟩
  case inr.inr.inr => exact ⟨h0, hlen, hformat⟩

theorem Frame.Begun.after_takesAll {f g : Frame} {fmt : Byte} {w : List Byte} (hw : TakesAll f w g) (hf : f.Begun fmt) : g.Begun fmt := by
  induction hw with
  | nil f => exact hf
  | cons hb _ ih => exact ih (hf.after_feed hb)

/-- A first byte that needs more is an accepted format byte. -/
theorem feed_first_needMore {f g : Frame} {fmt : Byte} (h0 : f.hrx = 0#3) (h : feed fmt f = some (.needMore, g)) :
    g = takeHeaderByte fmt (startFrame fmt f) := by
  obtain ⟨-, hcases⟩ := feed_cases h
  rcases hcases with ⟨-, -, hr, -⟩ | ⟨-, -, -, hg⟩ | ⟨hne, -⟩ | ⟨hne, -⟩
  case inl => cases hr
  case inr.inl => exact hg
  case inr.inr.inl => exact absurd h0 hne
  case inr.inr.inr => exact absurd h0 hne

/-- Two format bytes that announce the same lengths bring a frame to the same place. -/
theorem sameShape_after_first_byte {f : Frame} {fmt fmt' : Byte} (h0 : f.hrx = 0#3) (hh : headerLength fmt' = headerLength fmt)
    (hl : lengthInFormat fmt' = lengthInFormat fmt) :
    SameShape (takeHeaderByte fmt (startFrame fmt f)) (takeHeaderByte fmt' (startFrame fmt' f)) := by
  rw [takeHeaderByte_startFrame fmt f h0, takeHeaderByte_startFrame fmt' f h0]
  exact
    { hlenExp := by simp only [hh]
      dlenExp := by simp only [hl, formatDataLength]
      hrx := rfl
      drx := rfl
      format := by simpa [Frame.format] using hl }

/-- The byte due in a frame begun from reset is its length byte at that byte's place in the header only. -/
theorem length_place_of_lengthByteDue {f : Frame} {fmt : Byte} {before : List Byte} (hf : f.Begun fmt) (hi : f.Inv)
    (hrec : f.received = fmt :: before) (hdue : f.lengthByteDue = true) :
    lengthInFormat fmt = 0#6 ∧ before.length + 2 = headerLength fmt := by
  simp only [Frame.lengthByteDue, decide_eq_true_eq] at hdue
  obtain ⟨hl, hlast, hzero⟩ := hdue
  have hcount : f.hrx.toNat = before.length + 1 := by
    have hlen := congrArg List.length hrec
    have hplace : f.hrx.toNat ≤ Config.hbufSize := hi.header_bounded.trans hi.header_legal
    simp only [Frame.received, hi.drx_eq_zero hl, List.length_append, List.length_take, Vector.length_toList,
      BitVec.toNat_ofNat, List.length_cons] at hlen
    omega
  have hsucc := hrx_add_one_toNat hl
  rw [hlast, hf.hlenExp_eq] at hsucc
  exact ⟨hf.format_eq ▸ hzero, by omega⟩

/-! ## The checksum byte -/

/-- The header and the data are taken, and the next byte is the checksum (R147). -/
structure Frame.ChecksumDue (f : Frame) : Prop where
  hrx_ne_zero : f.hrx ≠ 0#3
  header_taken : f.hrx = f.hlenExp
  data_taken : f.drx.toNat = f.dlenExp.toNat

theorem SameShape.checksumDue {f f' : Frame} (hs : SameShape f f') (hf : f.ChecksumDue) : f'.ChecksumDue where
  hrx_ne_zero := hs.hrx ▸ hf.hrx_ne_zero
  header_taken := by rw [hs.hrx, hs.hlenExp]; exact hf.header_taken
  data_taken := by rw [hs.drx, hs.dlenExp]; exact hf.data_taken

/-- The bytes taken by then are those the checksum covers. -/
theorem Frame.ChecksumDue.received {f : Frame} (hf : f.ChecksumDue) : f.header ++ f.data = f.received := by
  rw [Frame.header, Frame.data, Frame.received, hf.header_taken, hf.data_taken]

/-- The checksum byte decides between Done and Error(E_CKS) (R147). -/
theorem Frame.ChecksumDue.feed {f : Frame} (hf : f.ChecksumDue) (c : Byte) :
    Machine.feed c f = some (if sum8 f.received = c then .done else .error .eCks, takeDataByte c f) := by
  have hc : f.complete = false := complete_eq_false_of_drx (by rw [hf.data_taken]; omega)
  have hl : ¬ f.hrx < f.hlenExp := by rw [hf.header_taken]; exact BitVec.lt_irrefl _
  have hlast : (takeDataByte c f).drx.toNat = (takeDataByte c f).dlenExp.toNat + 1 := by
    rw [takeDataByte_drx, drx_add_one_toNat hf.data_taken.le, hf.data_taken, takeDataByte_dlenExp]
  rw [feed_data hc hf.hrx_ne_zero hl, checkFrame, if_pos hlast, takeDataByte_header,
    takeDataByte_data c f hf.data_taken, hf.received]
  simp only [vsum8, beq_iff_eq]

/-- Done is answered to a checksum byte only. -/
theorem checksumDue_of_done {f g : Frame} {c : Byte} (hi : f.Inv) (h : feed c f = some (.done, g)) : f.ChecksumDue := by
  obtain ⟨hc, hcases⟩ := feed_cases h
  rcases hcases with ⟨-, -, hr, -⟩ | ⟨-, -, hr, -⟩ | ⟨-, -, hr, -⟩ | ⟨h0, hl, hr, rfl⟩
  case inl => cases hr
  case inr.inl => cases hr
  case inr.inr.inl => cases hr
  case inr.inr.inr =>
    have heq := hi.hrx_eq_hlenExp hl
    have hle := hi.drx_le_dlenExp h0 heq hc
    have hlast : (takeDataByte c f).drx.toNat = (takeDataByte c f).dlenExp.toNat + 1 := by
      by_contra hne
      rw [checkFrame_eq_needMore_iff.mpr hne] at hr
      cases hr
    rw [takeDataByte_drx, drx_add_one_toNat hle, takeDataByte_dlenExp] at hlast
    exact ⟨h0, heq, by omega⟩

/-! ## Decoding up to the checksum -/

/-- A decoding with Done on its last byte took the bytes before it up to the checksum, which is their sum. -/
theorem takesAll_of_decodeFrame_done {u : List Byte} {c : Byte} {f g : Frame}
    (h : decodeFrame (u ++ [c]) f = some (.done, g, u.length + 1)) :
    ∃ k, TakesAll f.zeroCounts u k ∧ k.ChecksumDue ∧ sum8 u = c := by
  obtain ⟨k, hu, hc⟩ := takesAll_of_feedAll (by decide) h
  obtain ⟨hi, hrec⟩ := hu.received (zeroCounts_zero f).inv
  have hdue := checksumDue_of_done hi hc
  refine ⟨k, hu, hdue, ?_⟩
  rw [hdue.feed c, hrec, received_zeroCounts, List.nil_append] at hc
  by_contra hne
  rw [if_neg hne] at hc
  cases hc

/-- A last byte that is not the sum of the bytes before it is rejected. -/
theorem decodeFrame_rejects {u : List Byte} {c : Byte} {f k : Frame} {n : Nat} (hu : TakesAll f.zeroCounts u k)
    (hdue : k.ChecksumDue) (hne : sum8 u ≠ c) (hn : n = u.length + 1) :
    ∃ g, decodeFrame (u ++ [c]) f = some (.error .eCks, g, n) := by
  obtain ⟨-, hrec⟩ := hu.received (zeroCounts_zero f).inv
  have hc : feed c k = some (.error .eCks, takeDataByte c k) := by
    rw [hdue.feed c, hrec, received_zeroCounts, List.nil_append, if_neg hne]
  refine ⟨takeDataByte c k, ?_⟩
  rw [decodeFrame, hu.feedAll_append, feedAll_cons_ends hc (by decide), hn, Nat.add_comm]
  rfl

/-- A byte changed behind the format byte, other than the length byte, leaves the bytes up to the checksum taken. -/
theorem takesAll_changed_byte {fmt x y : Byte} {before after : List Byte} {f k : Frame}
    (hplace : ¬ (lengthInFormat fmt = 0#6 ∧ before.length + 2 = headerLength fmt))
    (h : TakesAll f.zeroCounts (fmt :: before ++ x :: after) k) :
    ∃ k', TakesAll f.zeroCounts (fmt :: before ++ y :: after) k' ∧ SameShape k k' := by
  obtain ⟨g, hbefore, hrest⟩ := h.of_append
  obtain ⟨hi, hrec⟩ := hbefore.received (zeroCounts_zero f).inv
  have hbegun : g.Begun fmt := by
    cases hbefore with
    | cons hfmt hw => exact .after_takesAll hw (feed_first_needMore rfl hfmt ▸ begun_after_first_byte fmt rfl)
  have hdue : ¬ g.lengthByteDue = true := fun hdue => hplace (length_place_of_lengthByteDue hbegun hi hrec hdue)
  cases hrest with
  | cons hx hafter =>
    obtain ⟨m, hy, hs, h0⟩ := (SameShape.refl g).feed hbegun.hrx_ne_zero (fun hd => absurd hd hdue) hx
    obtain ⟨k', hafter', hs'⟩ := hs.takesAll hafter h0
    exact ⟨k', hbefore.append (.cons hy hafter'), hs'⟩

/-- A format byte changed for one that announces the same lengths leaves the bytes up to the checksum taken. -/
theorem takesAll_changed_format {fmt fmt' : Byte} {body : List Byte} {f k : Frame} (hok : badFormat fmt' = false)
    (hh : headerLength fmt' = headerLength fmt) (hl : lengthInFormat fmt' = lengthInFormat fmt)
    (h : TakesAll f.zeroCounts (fmt :: body) k) : ∃ k', TakesAll f.zeroCounts (fmt' :: body) k' ∧ SameShape k k' := by
  cases h with
  | cons hfmt hbody =>
    cases feed_first_needMore rfl hfmt
    obtain ⟨k', hbody', hs⟩ := (sameShape_after_first_byte rfl hh hl).takesAll hbody (begun_after_first_byte fmt rfl).hrx_ne_zero
    exact ⟨k', .cons (feed_first rfl hok) hbody', hs⟩

/-- Settles O35: each corruption reaches the checksum byte where the valid frame did, and there either the byte or the sum before it has changed. -/
theorem corruptedFrameIsRejected : Obligations.CorruptedFrameIsRejected := by
  intro fmt body c f g n h hn
  rw [List.length_append, List.length_singleton] at hn
  rw [hn] at h
  obtain ⟨k, hk, hdue, hsum⟩ := takesAll_of_decodeFrame_done h
  refine ⟨fun c' hne => ?_, fun before after x y hbody hne hplace => ?_, fun fmt' hne hok hh hl => ?_⟩
  · exact decodeFrame_rejects hk hdue (hsum ▸ hne.symm) hn
  · subst hbody
    obtain ⟨k', hk', hs⟩ := takesAll_changed_byte (y := y) hplace hk
    exact decodeFrame_rejects hk' (hs.checksumDue hdue) (hsum ▸ sum8_changed_byte (fmt :: before) after hne) (by simpa using hn)
  · obtain ⟨k', hk', hs⟩ := takesAll_changed_format hok hh hl hk
    exact decodeFrame_rejects hk' (hs.checksumDue hdue) (hsum ▸ sum8_changed_byte [] body hne) hn

end Sys2Proof.Machine

/-! PROOFS. The CRC unit (spec/41_crc16.md). The register's shift is linear and loses nothing, so a byte can be brought into the register before or between
the shifts: from this come the equivalent forms of R123 and R127 and the laws of R128. -/

namespace Sys2Proof.Machine

/-! ## The shift of the register -/

theorem crcShifts_add (m n : Nat) (c : Half) : crcShifts (m + n) c = crcShifts n (crcShifts m c) := by
  induction m generalizing c with
  | zero => rw [Nat.zero_add, crcShifts]
  | succ m ih => rw [Nat.add_right_comm, crcShifts, crcShifts, ih]

/-- The last of several shifts apart from those before it. -/
theorem crcShifts_succ (n : Nat) (c : Half) : crcShifts (n + 1) c = crcShift (crcShifts n c) := crcShifts_add n 1 c

theorem crcShifts_zero (n : Nat) : crcShifts n 0#16 = 0#16 := by
  induction n with
  | zero => rfl
  | succ n ih => exact ih

/-- After some shifts to the left the top bit is one that stood below it. -/
theorem shiftLeft_top (c : Half) {n : Nat} (h : n ≤ 15) : (c <<< n).getLsbD 15 = c.getLsbD (15 - n) := by
  rw [BitVec.getLsbD_shiftLeft, decide_eq_true (by omega), decide_eq_false (by omega)]
  rfl

/-- Without a bit to feed back the register is only shifted. -/
theorem crcShift_of_top_clear {c : Half} (h : c.getLsbD 15 = false) : crcShift c = c <<< 1 := by
  rw [crcShift, h, if_neg Bool.false_ne_true]

theorem crcShifts_of_top_clear {c : Half} {n : Nat} (hn : n ≤ 16) (h : ∀ i < n, c.getLsbD (15 - i) = false) :
    crcShifts n c = c <<< n := by
  induction n with
  | zero => rw [crcShifts, BitVec.shiftLeft_zero]
  | succ n ih =>
    have htop : (c <<< n).getLsbD 15 = false := by rw [shiftLeft_top c (by omega), h n (Nat.lt_succ_self n)]
    rw [crcShifts_succ, ih (by omega) fun i hi => h i (Nat.lt_succ_of_lt hi), crcShift_of_top_clear htop,
      ← BitVec.shiftLeft_add]

/-- Only the zero register is shifted to zero: the constant term of the polynomial keeps the bit fed back. -/
theorem eq_zero_of_crcShift_eq_zero {c : Half} (h : crcShift c = 0#16) : c = 0#16 := by
  have htop : c.getLsbD 15 = false := by
    by_contra hset
    rw [Bool.not_eq_false] at hset
    rw [crcShift, if_pos hset] at h
    have hbit := congrArg (BitVec.getLsbD · 0) h
    simp [Config.crcPoly] at hbit
  rw [crcShift_of_top_clear htop] at h
  apply BitVec.eq_of_getLsbD_eq
  intro i hi
  rcases Nat.lt_or_ge i 15 with hlt | hge
  · have hbit := congrArg (BitVec.getLsbD · (i + 1)) h
    simpa [hi, Nat.succ_lt_succ hlt] using hbit
  · obtain rfl : i = 15 := by omega
    simpa using htop

/-- The shift loses nothing, being linear. -/
theorem crcShift_injective : Function.Injective crcShift := by
  intro c d h
  rw [← BitVec.xor_eq_zero_iff] at h ⊢
  rw [← crcShift_xor] at h
  exact eq_zero_of_crcShift_eq_zero h

theorem crcShifts_injective (n : Nat) : Function.Injective (crcShifts n) := by
  induction n with
  | zero => exact fun _ _ h => h
  | succ n ih => exact ih.comp crcShift_injective

/-! ## The two bytes of the register -/

/-- The register is its high byte and its low byte. -/
theorem high_append_low (c : Half) : c.extractLsb' 8 8 ++ c.extractLsb' 0 8 = c :=
  (BitVec.extractLsb'_append_extractLsb'_eq_extractLsb' rfl).trans BitVec.extractLsb'_eq_self

/-- The register shifted by a byte holds its low byte in the high half. -/
theorem shiftLeft_eq_low_append (c : Half) : c <<< 8 = c.extractLsb' 0 8 ++ 0#8 := by
  apply BitVec.eq_of_getLsbD_eq
  intro i hi
  have hsub : i - 8 < 8 := by omega
  rw [BitVec.getLsbD_append, BitVec.getLsbD_shiftLeft, BitVec.getLsbD_extractLsb', BitVec.getLsbD_zero, Nat.zero_add]
  by_cases hlt : i < 8 <;> simp [hlt, hi, hsub]

/-- Two bytes are read back from the word they make. -/
theorem append_byte_inj {x y x' y' : Byte} (h : x ++ y = x' ++ y') : x = x' ∧ y = y' := by
  have hhigh := congrArg (BitVec.extractLsb' 8 8) h
  have hlow := congrArg (BitVec.extractLsb' 0 8) h
  rw [BitVec.extractLsb'_append_eq_left, BitVec.extractLsb'_append_eq_left] at hhigh
  rw [BitVec.extractLsb'_append_eq_right, BitVec.extractLsb'_append_eq_right] at hlow
  exact ⟨hhigh, hlow⟩

/-! ## The byte step -/

/-- A byte in the low half of the register comes to the high half in eight shifts, without feedback. -/
theorem crcShifts_low_byte (b : Byte) : crcShifts 8 (0#8 ++ b) = b ++ 0#8 := by
  have htop : ∀ i < 8, (0#8 ++ b).getLsbD (15 - i) = false := fun i hi => by
    rw [BitVec.getLsbD_append, if_neg (by omega), BitVec.getLsbD_zero]
  rw [crcShifts_of_top_clear (by omega) htop, shiftLeft_eq_low_append, BitVec.extractLsb'_append_eq_right]

theorem crcInByte_injective (p : Params) : Function.Injective (crcInByte p) := by
  unfold crcInByte
  split
  · exact Function.LeftInverse.injective fun b : Byte => BitVec.reverse_reverse_eq (x := b)
  · exact fun _ _ h => h

theorem crcInByte_xor (p : Params) (x y : Byte) : crcInByte p (x ^^^ y) = crcInByte p x ^^^ crcInByte p y := by
  unfold crcInByte
  split
  · apply BitVec.eq_of_getLsbD_eq
    intro i hi
    simp [rev8, BitVec.getLsbD_reverse]
  · rfl

/-- The byte step is linear in the register and the byte together. -/
theorem crcByte_xor (p : Params) (c d : Half) (x y : Byte) :
    crcByte p c x ^^^ crcByte p d y = crcByte p (c ^^^ d) (x ^^^ y) := by
  have hword : crcInByte p (x ^^^ y) ++ 0#8 = (crcInByte p x ++ 0#8) ^^^ (crcInByte p y ++ 0#8) := by
    rw [crcInByte_xor, BitVec.xor_append, BitVec.xor_self]
  rw [crcByte, crcByte, crcByte, ← crcShifts_xor, hword]
  congr 1
  ac_rfl

theorem crcByte_injective (p : Params) (b : Byte) : Function.Injective (crcByte p · b) :=
  (crcShifts_injective 8).comp fun _ _ h => (BitVec.xor_left_inj _).mp h

/-- Two byte steps are sixteen shifts after both bytes have been brought in, the second into the low half. -/
theorem crcByte_crcByte (p : Params) (c : Half) (x y : Byte) :
    crcByte p (crcByte p c x) y = crcShifts 16 (c ^^^ (crcInByte p x ++ crcInByte p y)) := by
  have hword : crcInByte p x ++ crcInByte p y = (crcInByte p x ++ 0#8) ^^^ (0#8 ++ crcInByte p y) := by
    rw [BitVec.xor_append, BitVec.xor_zero, BitVec.zero_xor]
  calc crcByte p (crcByte p c x) y
      = crcShifts 8 (crcShifts 8 (c ^^^ (crcInByte p x ++ 0#8)) ^^^ crcShifts 8 (0#8 ++ crcInByte p y)) := by
        rw [crcShifts_low_byte, crcByte, crcByte]
    _ = crcShifts 16 (c ^^^ (crcInByte p x ++ crcInByte p y)) := by
        rw [← crcShifts_xor, ← crcShifts_add, BitVec.xor_assoc, ← hword]

/-- Settles O17: the low byte of the register meets no feedback in the eight shifts, and the high byte meets the one the table holds. -/
theorem crcTableFormIsTheByteStep : Obligations.CrcTableFormIsTheByteStep := by
  intro p c b
  have hsplit : c ^^^ (crcInByte p b ++ 0#8) =
      (0#8 ++ c.extractLsb' 0 8) ^^^ ((c.extractLsb' 8 8 ^^^ crcInByte p b) ++ 0#8) := by
    conv_lhs => rw [← high_append_low c]
    rw [BitVec.xor_append, BitVec.xor_append, BitVec.zero_xor, BitVec.xor_zero]
  rw [crcTableByte, crcByte, hsplit, crcShifts_xor, crcShifts_low_byte, shiftLeft_eq_low_append, crcTab]

/-! ## The bit-serial form -/

/-- One shift with a word brought in is one input bit, the word's top bit, and the rest of the word shifted behind it (R123). -/
theorem crcShift_xor_eq_crcBit (c w : Half) : crcShift (c ^^^ w) = crcBit c (w.getLsbD 15) ^^^ (w <<< 1) := by
  rw [crcShift, crcBit, BitVec.getLsbD_xor, BitVec.shiftLeft_xor_distrib]
  split
  · ac_rfl
  · rfl

/-- As many shifts with a word brought in are as many input bits from the top of the word. -/
theorem crcShifts_xor_eq_crcBits (c w : Half) {n : Nat} (hn : n ≤ 16) :
    crcShifts n (c ^^^ w) = ((List.range n).map (fun i => w.getLsbD (15 - i))).foldl crcBit c ^^^ (w <<< n) := by
  induction n with
  | zero => rw [crcShifts, BitVec.shiftLeft_zero, List.range_zero, List.map_nil, List.foldl_nil]
  | succ n ih =>
    rw [crcShifts_succ, ih (by omega), crcShift_xor_eq_crcBit, shiftLeft_top w (by omega),
      ← BitVec.shiftLeft_add, List.range_succ, List.map_append, List.foldl_append]
    rfl

/-- The byte step is the eight bits of the byte, the most significant first (R123). -/
theorem crcByte_eq_crcBits (p : Params) (c : Half) (b : Byte) :
    crcByte p c b = (msbFirst (crcInByte p b)).foldl crcBit c := by
  have hbits : (List.range 8).map (fun i => (crcInByte p b ++ 0#8).getLsbD (15 - i)) = msbFirst (crcInByte p b) := by
    refine List.map_congr_left fun i hi => ?_
    have hlt := List.mem_range.mp hi
    rw [BitVec.getLsbD_append, if_neg (by omega)]
    congr 1
    omega
  have hout : (crcInByte p b ++ 0#8) <<< 8 = (0#16 : Half) := by
    rw [shiftLeft_eq_low_append, BitVec.extractLsb'_append_eq_right]
    rfl
  rw [crcByte, crcShifts_xor_eq_crcBits c _ (by omega), hbits, hout, BitVec.xor_zero]

/-- CRC16.B in the bit-serial form. -/
theorem crc16_eq_crcBits (p : Params) (bs : List Byte) :
    crc16 p bs = crcOut p ((bs.flatMap (fun b => msbFirst (crcInByte p b))).foldl crcBit p.crcInit) := by
  have hstep : crcByte p = fun c b => (msbFirst (crcInByte p b)).foldl crcBit c :=
    funext₂ (crcByte_eq_crcBits p)
  rw [crc16, List.foldl_flatMap, hstep]

theorem exec_crc16b (bs : List Byte) (s : State) : exec (.crc16b bs) s = .next (spendCrc (s.answer (.half (crc16 s.params bs)))) := rfl

/-- Settles O16: each byte step is the eight bits of its byte. -/
theorem crc16GivesTheShiftRegistersValue : Obligations.Crc16GivesTheShiftRegistersValue := by
  intro bs s
  rw [exec_crc16b, crc16_eq_crcBits]
  exact ⟨_, rfl, rfl, .of_mem_eq rfl⟩

/-! ## Ranges of the memory -/

/-- The addresses of a range are the sums of R55. -/
theorem rangeAddresses_eq_map (a : Addr) (n : Nat) :
    rangeAddresses a n = (List.range n).map (fun i => BitVec.ofNat 32 (a.toNat + i)) := by
  induction n generalizing a with
  | zero => rfl
  | succ n ih =>
    rw [rangeAddresses, ih, List.range_succ_eq_map, List.map_cons, List.map_map, Nat.add_zero, BitVec.ofNat_toNat, BitVec.setWidth_eq]
    congr 1
    refine List.map_congr_left fun i _ => BitVec.eq_of_toNat_eq ?_
    simp only [Function.comp_apply, BitVec.toNat_add, BitVec.toNat_ofNat]
    omega

/-- A range is refused exactly if it has a byte above 0xFFFFFFFF (R58, R125). -/
theorem rangeWraps_iff (a : Addr) (n : Nat) : rangeWraps a n = true ↔ n ≠ 0 ∧ 0xFFFFFFFF < a.toNat + n - 1 := by
  simp [rangeWraps, Config.maxAddr, Nat.pos_iff_ne_zero]

theorem not_rangeWraps {a : Addr} {n : Nat} (h : n = 0 ∨ a.toNat + n - 1 ≤ 0xFFFFFFFF) : ¬ rangeWraps a n = true := by
  rw [rangeWraps_iff]
  omega

/-- The bytes of a range that does not wrap (R55). -/
theorem memBytes_rangeAddresses (m : Memory) {a : Addr} {n : Nat} (h : n = 0 ∨ a.toNat + n - 1 ≤ 0xFFFFFFFF) :
    memBytes m (rangeAddresses a n) = (List.range n).map (fun i => memRead m (a.toNat + i)) := by
  rw [memBytes, rangeAddresses_eq_map, List.map_map]
  refine List.map_congr_left fun i hi => ?_
  have hlt := List.mem_range.mp hi
  rw [Function.comp_apply, BitVec.toNat_ofNat, Nat.mod_eq_of_lt (by omega)]

/-- An operation over a range records the reads of R55 and its result, and spends the accumulator (spec/10_state.md R38). -/
theorem putsAndCrcs_range (a : Addr) (n : Nat) (r : Result) (s : State) :
    PutsAndCrcs ((List.range n).map (fun i => Output.memRead (BitVec.ofNat 32 (a.toNat + i))) ++ [.result r]) s
      (spendCrc ((readRange a n s).answer r)) := by
  have hreads : (List.range n).map (fun i => Output.memRead (BitVec.ofNat 32 (a.toNat + i))) =
      (rangeAddresses a n).map .memRead := by
    rw [rangeAddresses_eq_map, List.map_map]
    rfl
  refine ⟨?_, .of_mem_eq rfl⟩
  rw [hreads, ← List.append_assoc]
  rfl

theorem exec_crc16m (a : Addr) (n : Nat) (s : State) : exec (.crc16m a n) s = if rangeWraps a n then .refused .rangeWraps
    else .next (spendCrc ((readRange a n s).answer (.half (crcMem s.params s.mem a n)))) := rfl

theorem exec_crc16v (a : Addr) (n : Nat) (e : Half) (s : State) : exec (.crc16v a n e) s = if rangeWraps a n then .refused .rangeWraps
    else .next (spendCrc ((readRange a n s).answer (.bool (crcMem s.params s.mem a n == e)))) := rfl

/-- Settles O18: the range's addresses are the sums, and none of them wraps unless the operation is refused. -/
theorem crc16OverMemory : Obligations.Crc16OverMemory := by
  intro a n s
  rw [exec_crc16m]
  refine ⟨fun hin => ?_, fun hout => if_pos ((rangeWraps_iff a n).mpr hout)⟩
  rw [if_neg (not_rangeWraps hin), crcMem, memBytes_rangeAddresses s.mem hin]
  exact ⟨_, rfl, putsAndCrcs_range a n _ s⟩

/-- Settles O19: the comparison is that of the CRC of the same bytes. -/
theorem crc16Comparator : Obligations.Crc16Comparator := by
  intro a n e s
  rw [exec_crc16v]
  refine ⟨fun hin => ?_, fun hout => if_pos ((rangeWraps_iff a n).mpr hout)⟩
  rw [if_neg (not_rangeWraps hin), crcMem, memBytes_rangeAddresses s.mem hin, beq_eq_decide]
  exact ⟨_, rfl, putsAndCrcs_range a n _ s⟩

/-! ## The laws of R128 -/

/-- Without reflection a byte enters the generator as it is. -/
theorem crcInByte_of_not_refin {p : Params} (h : p.crcRefin = false) (b : Byte) : crcInByte p b = b := by
  rw [crcInByte, h, if_neg Bool.false_ne_true]

/-- Without reflection and final xor the CRC is the register. -/
theorem crc16_eq_register {p : Params} (hrefout : p.crcRefout = false) (hxor : p.crcXorout = 0#16) (bs : List Byte) :
    crc16 p bs = bs.foldl (crcByte p) p.crcInit := by
  rw [crc16, crcOut, hrefout, hxor, if_neg Bool.false_ne_true, BitVec.xor_zero]

/-- Settles O20: the two bytes appended are the register, so bringing them in clears it, and a clear register stays clear. -/
theorem crcResidueIsZero : Obligations.CrcResidueIsZero := by
  intro p bs hrefin hrefout hxor
  simp only [crc16_eq_register hrefout hxor, List.foldl_append, List.foldl_cons, List.foldl_nil]
  rw [crcByte_crcByte, crcInByte_of_not_refin hrefin, crcInByte_of_not_refin hrefin, high_append_low, BitVec.xor_self, crcShifts_zero]

/-- Two runs over sequences of one length differ as the run over their xor differs from the run over zero bytes. -/
theorem foldl_crcByte_xor (p : Params) {s t : List Byte} (hlen : s.length = t.length) {c d e z : Half} (h : e ^^^ z = c ^^^ d) :
    (List.zipWith (· ^^^ ·) s t).foldl (crcByte p) e ^^^ (List.replicate s.length 0#8).foldl (crcByte p) z =
      s.foldl (crcByte p) c ^^^ t.foldl (crcByte p) d := by
  induction s generalizing t c d e z with
  | nil =>
    obtain rfl := List.eq_nil_of_length_eq_zero hlen.symm
    exact h
  | cons x s ih =>
    cases t with
    | nil => cases hlen
    | cons y t =>
      refine ih (Nat.succ.inj hlen) ?_
      rw [crcByte_xor, crcByte_xor, h, BitVec.xor_zero]

/-- Settles O21: the register is linear in the bytes, and the initial value is in each of the four runs. -/
theorem crcIsLinear : Obligations.CrcIsLinear := by
  intro p s t _ hrefout hxor hlen
  simp only [crc16_eq_register hrefout hxor]
  exact foldl_crcByte_xor p hlen rfl

/-! ## Changed bytes -/

/-- The output stage can be undone (R122). -/
theorem crcOut_injective (p : Params) : Function.Injective (crcOut p) := by
  intro c d h
  have hrev := (BitVec.xor_left_inj _).mp h
  split at hrev
  · exact Function.LeftInverse.injective (fun w : Half => BitVec.reverse_reverse_eq (x := w)) hrev
  · exact hrev

/-- Registers that differ stay different over the same bytes. -/
theorem foldl_crcByte_injective (p : Params) (bs : List Byte) : Function.Injective (bs.foldl (crcByte p)) := by
  induction bs with
  | nil => exact fun _ _ h => h
  | cons b rest ih => exact ih.comp (crcByte_injective p b)

/-- Settles O22: two bytes fill the register, so they can be read back from what it is after them, and nothing behind them loses the difference. -/
theorem crcDetectsTwoChangedBytes : Obligations.CrcDetectsTwoChangedBytes := by
  intro p before after x y x' y' hne h
  rw [crc16_append, crc16_append] at h
  have hregister := foldl_crcByte_injective p after (crcOut_injective p h)
  rw [crcByte_crcByte, crcByte_crcByte] at hregister
  have hword := (BitVec.xor_right_inj _).mp (crcShifts_injective 16 hregister)
  obtain ⟨hx, hy⟩ := append_byte_inj hword
  exact hne ⟨crcInByte_injective p hx, crcInByte_injective p hy⟩

end Sys2Proof.Machine

/-! PROOFS. The frame decoder, feed by feed (spec/42_frame_decoder.md R141 to R148): what each byte of a frame does to it, the bytes a decoded frame
holds (R151), and that no receive event is refused. -/

namespace Sys2Proof.Machine

/-! ## FD.RESET and the refusal of FD.FEED -/

/-- Settles O23: FD.RESET is the frame reset, which writes the four counts only. -/
theorem frameResetZeroesTheCounts : Obligations.FrameResetZeroesTheCounts := fun _ => exists_next_sameMemory rfl rfl

theorem feedOp_refused_iff (b : Byte) (s : State) : feedOp b s = .refused .frameComplete ↔ feedState b s = none := by
  unfold feedOp
  cases feedState b s with
  | none => exact ⟨fun _ => rfl, fun _ => rfl⟩
  | some x => exact ⟨nofun, nofun⟩

/-- Settles O24: FD.FEED is refused where the feed is, and a feed is refused on a complete frame only. -/
theorem feedRefusedExactlyWhenComplete : Obligations.FeedRefusedExactlyWhenComplete := fun b s =>
  (feedOp_refused_iff b s).trans (feedState_eq_none_iff b s)

/-! ## The header -/

theorem hrx_ne_zero_of_pos {f : Frame} (h : 0 < f.hrx.toNat) : f.hrx ≠ 0#3 := fun h0 => by simp [h0] at h

/-- Settles O25: an accepted first byte takes steps 1 and 2, which are one update of the frame. -/
theorem acceptedFirstByteStartsTheFrame : Obligations.AcceptedFirstByteStartsTheFrame := by
  intro b s h0 ha
  refine exists_next_sameMemory ((feedOp_of_no_sum (feed_first h0 (beq_false_of_ne ha)) rfl).trans ?_) rfl
  rw [takeHeaderByte_startFrame b s.frame h0]
  rfl

/-- Step 2 on a later header byte, as one update of the frame (R144, R145). -/
theorem takeHeaderByte_later {f : Frame} (b : Byte) (h0 : f.hrx ≠ 0#3) (hl : f.hrx < f.hlenExp) :
    takeHeaderByte b f = { f with
      dlenExp := if f.hrx.toNat + 1 = f.hlenExp.toNat ∧ lengthInFormat f.hbuf[0] = 0#6 then b else f.dlenExp
      hrx := f.hrx + 1#3
      hbuf := f.hbuf.setIfInBounds f.hrx.toNat b } := by
  have hformat : (f.hbuf.setIfInBounds f.hrx.toNat b)[0] = f.hbuf[0] := setIfInBounds_format b h0
  have hlast : f.hrx + 1#3 = f.hlenExp ↔ f.hrx.toNat + 1 = f.hlenExp.toNat := by
    rw [← BitVec.toNat_inj, hrx_add_one_toNat hl]
  simp only [takeHeaderByte, Frame.format, hformat, hlast]
  split <;> rfl

/-- Settles O28: a later header byte takes step 2, which needs more. -/
theorem headerByteAccumulates : Obligations.HeaderByteAccumulates := by
  intro b s _ hpos hl
  have h0 := hrx_ne_zero_of_pos hpos
  refine exists_next_sameMemory ((feedOp_of_no_sum (feed_header h0 hl) rfl).trans ?_) rfl
  rw [takeHeaderByte_later b h0 hl]
  rfl

/-! ## The data -/

/-- A byte behind the header and before the checksum takes step 3 and needs more (R146). -/
theorem feed_dataByte {f : Frame} (b : Byte) (h0 : f.hrx ≠ 0#3) (heq : f.hrx = f.hlenExp) (hd : f.drx.toNat < f.dlenExp.toNat) :
    feed b f = some (.needMore, takeDataByte b f) := by
  have hc : f.complete = false := complete_eq_false_of_drx (by omega)
  have hl : ¬ f.hrx < f.hlenExp := heq ▸ BitVec.lt_irrefl _
  have hmore : checkFrame b (takeDataByte b f) = .needMore := by
    rw [checkFrame_eq_needMore_iff, takeDataByte_drx, takeDataByte_dlenExp, drx_add_one_toNat hd.le]
    omega
  rw [feed_data hc h0 hl, hmore]

/-- Settles O29: a data byte takes step 3, which needs more. -/
theorem dataByteAccumulates : Obligations.DataByteAccumulates := fun b _ _ hpos heq hd =>
  exists_next_sameMemory (feedOp_of_no_sum (feed_dataByte b (hrx_ne_zero_of_pos hpos) heq hd) rfl) rfl

/-! ## The checksum byte -/

theorem sum8_eq_byte_iff (bs : List Byte) (b : Byte) : sum8 bs = b ↔ (bs.map BitVec.toNat).sum % 256 = b.toNat := by
  rw [← BitVec.toNat_inj, sum8_toNat]

/-- The comparison's result is an Error where the sum differs. -/
theorem isError_of_comparison (c : Prop) [Decidable c] :
    (if c then FeedResult.done else .error .eCks).isError = decide (¬ c) := by
  by_cases hc : c <;> simp [hc, FeedResult.isError]

/-- The checksum byte completes the frame, whatever its value. -/
theorem Frame.ChecksumDue.complete_after {f : Frame} (hf : f.ChecksumDue) (c : Byte) : (takeDataByte c f).complete = true := by
  refine (complete_iff _).mpr ⟨hf.hrx_ne_zero, hf.header_taken, ?_⟩
  rw [takeDataByte_drx, takeDataByte_dlenExp, drx_add_one_toNat hf.data_taken.le, hf.data_taken]

/-- Settles O30: with the checksum due, the feed stores the byte and compares it with the sum of the bytes received. -/
theorem lastByteIsCheckedAgainstTheSum : Obligations.LastByteIsCheckedAgainstTheSum := by
  intro b s _ hpos heq hd
  have hdue : s.frame.ChecksumDue := ⟨hrx_ne_zero_of_pos hpos, heq, hd⟩
  obtain ⟨t, ht, -, hframe, -⟩ := feedOp_eq (hdue.feed b)
  simp only [← hdue.received, isError_of_comparison, sum8_eq_byte_iff] at hframe
  have hmem : t.mem = s.mem := by rw [hframe]
  have hcomplete : t.frame.complete = true := by rw [hframe]; exact hdue.complete_after b
  exact ⟨t, ht, .of_mem_eq hmem, hcomplete, hframe⟩

/-- A result of the comparison is given to the checksum byte only. -/
theorem checksumDue_of_usesSum {f g : Frame} {c : Byte} {r : FeedResult} (hi : f.Inv) (h : feed c f = some (r, g))
    (hr : r.usesSum = true) : f.ChecksumDue := by
  obtain ⟨hc, hcases⟩ := feed_cases h
  rcases hcases with ⟨-, -, rfl, -⟩ | ⟨-, -, rfl, -⟩ | ⟨-, -, rfl, -⟩ | ⟨h0, hl, -, -⟩
  case inl => cases hr
  case inr.inl => cases hr
  case inr.inr.inl => cases hr
  case inr.inr.inr =>
    have heq := hi.hrx_eq_hlenExp hl
    refine ⟨h0, heq, (hi.drx_le_dlenExp h0 heq hc).eq_of_not_lt fun hlt => ?_⟩
    rw [feed_dataByte c h0 heq hlt] at h
    cases h
    cases hr

/-! ## The bytes of a decoded frame -/

/-- A decoding that ends in another result than NeedMore took bytes that all needed more, and one that gave the result. -/
theorem takesAll_of_feedAll_ends {w : List Byte} {f k : Frame} {r : FeedResult} {n : Nat} (hr : r ≠ .needMore)
    (h : feedAll w f = some (r, k, n)) :
    ∃ u c g, w.take n = u ++ [c] ∧ n = u.length + 1 ∧ TakesAll f u g ∧ feed c g = some (r, k) := by
  induction w generalizing f n with
  | nil => cases h; exact absurd rfl hr
  | cons b w ih =>
    rw [feedAll] at h
    split at h
    next => cases h
    next g hb =>
      obtain ⟨⟨r', k', m⟩, hw, heq⟩ := Option.map_eq_some_iff.mp h
      cases heq
      obtain ⟨u, c, g', htake, rfl, hu, hc⟩ := ih hw
      exact ⟨b :: u, c, g', by rw [List.take_succ_cons, htake, List.cons_append], rfl, .cons hb hu, hc⟩
    next hb => cases h; exact ⟨[], b, f, rfl, rfl, .nil f, hb⟩
    next hb => cases h; exact ⟨[], b, f, rfl, rfl, .nil f, hb⟩

/-- A begun frame announces two bytes or more before its checksum: a header of one byte carries a nonzero data length (R79, R80). -/
def Frame.AnnouncesTwo (f : Frame) : Prop := f.hrx ≠ 0#3 → 2 ≤ f.hlenExp.toNat + f.dlenExp.toNat

theorem announcesTwo_after_first_byte {f : Frame} (b : Byte) (h0 : f.hrx = 0#3) :
    (takeHeaderByte b (startFrame b f)).AnnouncesTwo := by
  intro _
  have hlen : (takeHeaderByte b (startFrame b f)).hlenExp.toNat = headerLength b := by
    rw [takeHeaderByte_hlenExp, startFrame_hlenExp_toNat]
  rw [hlen, takeHeaderByte_startFrame b f h0]
  dsimp only
  by_cases hz : lengthInFormat b = 0#6
  · simp only [headerLength, hz, if_true]
    omega
  · have hpos : (lengthInFormat b).toNat ≠ 0 := fun h => hz (BitVec.eq_of_toNat_eq h)
    obtain ⟨hmin, -⟩ := headerLength_range b
    rw [if_neg hz, formatDataLength_toNat]
    omega

/-- A byte that needs more leaves two bytes announced: the length byte, which may be zero, is not the only header byte. -/
theorem announcesTwo_after_feed {f g : Frame} {b : Byte} (hf : f.AnnouncesTwo) (h : feed b f = some (.needMore, g)) :
    g.AnnouncesTwo := by
  obtain ⟨-, hcases⟩ := feed_cases h
  rcases hcases with ⟨-, -, hr, -⟩ | ⟨h0, -, -, rfl⟩ | ⟨h0, hl, -, rfl⟩ | ⟨h0, -, -, rfl⟩
  case inl => cases hr
  case inr.inl => exact announcesTwo_after_first_byte b h0
  case inr.inr.inl =>
    intro _
    have hpos : f.hrx.toNat ≠ 0 := fun h => h0 (BitVec.eq_of_toNat_eq h)
    rw [BitVec.lt_def] at hl
    rw [takeHeaderByte_hlenExp]
    omega
  case inr.inr.inr => exact fun _ => hf h0

theorem TakesAll.announcesTwo {f g : Frame} {u : List Byte} (hu : TakesAll f u g) (hf : f.AnnouncesTwo) : g.AnnouncesTwo := by
  induction hu with
  | nil f => exact hf
  | cons hb _ ih => exact ih (announcesTwo_after_feed hf hb)

/-- With the checksum due, as many bytes are taken as the two lengths announce. -/
theorem Frame.ChecksumDue.length_received {f : Frame} (hf : f.ChecksumDue) (hi : f.Inv) :
    f.received.length = f.hlenExp.toNat + f.dlenExp.toNat := by
  have hlen : f.hlenExp.toNat ≤ Config.hbufSize := hi.header_legal
  have hdata : f.dlenExp.toNat ≤ Config.pbufSize := f.dlenExp.isLt.le
  rw [Frame.received, List.length_append, List.length_take, List.length_take, Vector.length_toList, Vector.length_toList,
    hf.header_taken, hf.data_taken, Nat.min_eq_left hlen, Nat.min_eq_left hdata]

/-- The checksum byte stands behind the data bytes (spec/10_state.md R26). -/
theorem Frame.ChecksumDue.pbuf_checksum {f : Frame} (hf : f.ChecksumDue) (c : Byte) :
    (takeDataByte c f).pbuf.toList.getD f.dlenExp.toNat 0#8 = c := by
  have hplace : f.dlenExp.toNat < 256 := f.dlenExp.isLt
  rw [takeDataByte_pbuf, hf.data_taken, Vector.toList_setIfInBounds, List.getD_eq_getElem?_getD,
    List.getElem?_set_self (by simpa using hplace)]
  rfl

/-- Settles O32: the bytes before the last are received up to the checksum, and the last is stored behind them and compared with their sum. -/
theorem decodedFrameHoldsTheBytesItTook : Obligations.DecodedFrameHoldsTheBytesItTook := by
  intro w f g r n h hr
  have hsum : r.usesSum = true := by rcases hr with rfl | rfl <;> rfl
  obtain ⟨u, c, k, htake, rfl, hu, hc⟩ := takesAll_of_feedAll_ends (by rintro rfl; cases hsum) h
  obtain ⟨hi, hrec⟩ := hu.received (zeroCounts_zero f).inv
  rw [received_zeroCounts, List.nil_append] at hrec
  have hdue := checksumDue_of_usesSum hi hc hsum
  have htwo := hu.announcesTwo (fun h0 => absurd rfl h0) hdue.hrx_ne_zero
  have hlen := hdue.length_received hi
  have h4 := hi.header_legal
  have h255 := k.dlenExp.isLt
  rw [hrec] at hlen
  rw [hdue.feed c, hrec] at hc
  cases hc
  have hbytes : (takeDataByte c k).header ++ (takeDataByte c k).data = u := by
    rw [takeDataByte_header, takeDataByte_data c k hdue.data_taken, hdue.received, hrec]
  rw [hbytes, takeDataByte_hlenExp, takeDataByte_dlenExp, hdue.pbuf_checksum c]
  refine ⟨by omega, by omega, by omega, htake, ?_⟩
  rw [eq_comm (a := c)]
  split
  next heq => exact ⟨fun _ => heq, fun _ => rfl⟩
  next hne => exact ⟨nofun, fun heq => absurd heq hne⟩

/-! ## Receive events -/

theorem exists_next_of_execSyRxbyte (b : Byte) {s : State} (hc : s.mode = .run → s.frame.complete = false) :
    ∃ t, execSyRxbyte b s = .next t := by
  cases hm : s.mode with
  | run =>
    rcases execSyRxbyte_run hm rfl with ⟨hcomplete, -⟩ | ⟨r, t, -, ho⟩
    · rw [hc hm] at hcomplete; cases hcomplete
    · exact ⟨_, ho⟩
  | hold => simp only [execSyRxbyte, hm]; exact ⟨_, rfl⟩
  | purge => simp only [execSyRxbyte, hm]; exact ⟨_, rfl⟩

theorem exists_next_of_execSyRxerr (k : LinkError) (s : State) : ∃ t, execSyRxerr k s = .next t := by
  cases hm : s.mode <;> simp only [execSyRxerr, hm] <;> exact ⟨_, rfl⟩

theorem exists_next_of_execSyQuiet (d : Nat) (s : State) : ∃ t, execSyQuiet d s = .next t := by
  cases hm : s.mode with
  | run => simp only [execSyQuiet, hm]; exact ⟨_, rfl⟩
  | hold => simp only [execSyQuiet, hm]; exact ⟨_, rfl⟩
  | purge =>
    simp only [execSyQuiet, hm]
    split
    next => exact ⟨_, rfl⟩
    next => exact ⟨_, rfl⟩

/-- In RUN the invariant promises that a byte can be fed (spec/44_synchronizer.md R194). -/
theorem State.Inv.complete_of_run {s : State} (hi : s.Inv) (hm : s.mode = .run) : s.frame.complete = false := by
  have hp := hi.promise
  rw [ModePromise, hm] at hp
  exact hp

/-- Settles O55: the step runs the event's reaction, and only a byte fed to a complete frame, which RUN never holds, would be refused. -/
theorem receiveEventIsNeverRefused : Obligations.ReceiveEventIsNeverRefused := by
  intro s i rest hi hm hev hin
  rw [step_of_fetch (fetch_oldest hm hin)]
  rcases hev with ⟨b, rfl⟩ | ⟨k, rfl⟩ | ⟨d, rfl⟩
  · exact exists_next_of_execSyRxbyte b fun hrun => hi.complete_of_run hrun
  · exact exists_next_of_execSyRxerr k _
  · exact exists_next_of_execSyQuiet d _

end Sys2Proof.Machine

/-! PROOFS. The frame encoder (spec/43_frame_encoder.md): the checksum a send appends is the sum of all the bytes before it (R164), so that the decoder,
fed the header and the payload, stands before a checksum byte it accepts (R171); and what FE.SEND does with the frame (R160, R168). -/

namespace Sys2Proof.Machine

/-! ## The transmit header -/

theorem txHeader_short {n : Nat} (h : n ≤ 63) : txHeader n = [BitVec.ofNat 8 n] := if_pos h

theorem txHeader_long {n : Nat} (h : 64 ≤ n) : txHeader n = [0x00#8, BitVec.ofNat 8 n] := if_neg (Nat.not_le.mpr h)

theorem length_txHeader (n : Nat) : (txHeader n).length = if n ≤ 63 then 1 else 2 := by
  unfold txHeader; split <;> rfl

/-- Both forms of the header sum to the length: the long form's first byte is zero (spec/43_frame_encoder.md R164). -/
theorem sum8_txHeader (n : Nat) : sum8 (txHeader n) = BitVec.ofNat 8 n := by
  unfold txHeader; split <;> simp [sum8]

/-! ## The encoded frame -/

/-- The checksum of a send covers the header too, although it is computed from the length and the payload (R163, R164). -/
theorem txChecksum_eq_sum8 (n : Nat) (d : List Byte) : txChecksum n d = sum8 (txHeader n ++ d) := by
  rw [sum8_append, sum8_txHeader, txChecksum, BitVec.ofNat_add, BitVec.ofNat_toNat, BitVec.setWidth_eq]

/-- The checksum of a send in the true sum of the payload (R163). -/
theorem txChecksum_eq_ofNat (n : Nat) (d : List Byte) : txChecksum n d = BitVec.ofNat 8 (n + (d.map BitVec.toNat).sum) := by
  apply BitVec.eq_of_toNat_eq
  rw [txChecksum, sum8_toNat, BitVec.toNat_ofNat, BitVec.toNat_ofNat]
  omega

/-- Settles O39: the header's bytes add up to the length, so the checksum of R163 is the sum of all the bytes before it. -/
theorem encodersChecksumIsTheDecodersSum : Obligations.EncodersChecksumIsTheDecodersSum := by
  intro p length
  rw [encodeFrame, txChecksum_eq_sum8]
  rfl

/-- A payload of at most 255 bytes is sent whole (R161, R162). -/
theorem encodeFrame_whole {p : List Byte} (h : p.length ≤ 255) :
    encodeFrame p p.length = withChecksum (txHeader p.length ++ p) := by
  rw [encodersChecksumIsTheDecodersSum p p.length, Nat.min_eq_left h, List.take_length]

/-- An encoded frame begins with its transmit header. -/
theorem encodeFrame_getElem? (p : List Byte) (length : Nat) {i : Nat} (h : i < (txHeader (min length 255)).length) :
    (encodeFrame p length)[i]? = (txHeader (min length 255))[i]? := by
  rw [encodersChecksumIsTheDecodersSum p length, withChecksum, List.append_assoc, List.getElem?_append_left h]

/-- Settles O38: the header's form follows the clamped length, which is the length itself up to 63 and 64 or more above. -/
theorem encodedHeaderClassifiesTheLength : Obligations.EncodedHeaderClassifiesTheLength := by
  intro p v
  refine ⟨fun hshort => ?_, fun hlong => ?_⟩
  · have hheader : txHeader (min v 255) = [BitVec.ofNat 8 v] := by
      rw [Nat.min_eq_left (by omega), txHeader_short hshort]
    rw [encodeFrame_getElem? p v (by simp [hheader]), hheader]
    rfl
  · have hheader : txHeader (min v 255) = [0x00#8, BitVec.ofNat 8 (min v 255)] := txHeader_long (by omega)
    rw [encodeFrame_getElem? p v (by simp [hheader]), encodeFrame_getElem? p v (by simp [hheader]), hheader]
    exact ⟨rfl, rfl⟩

/-! ## The decoder on an encoded frame -/

/-- The header of a frame is taken and its data is due: `n` bytes, none taken yet (spec/42_frame_decoder.md R145). -/
structure Frame.DataDue (n : Nat) (f : Frame) : Prop where
  hrx_ne_zero : f.hrx ≠ 0#3
  header_taken : f.hrx = f.hlenExp
  dlenExp_eq : f.dlenExp.toNat = n
  drx_eq : f.drx = 0#9

/-- The one-byte header announces itself and the length it carries (R80, R143). -/
theorem takesAll_shortHeader {f : Frame} {n : Nat} (h0 : f.hrx = 0#3) (hdrx : f.drx = 0#9) (hpos : 1 ≤ n) (hn : n ≤ 63) :
    ∃ g, TakesAll f [BitVec.ofNat 8 n] g ∧ g.DataDue n ∧ g.hlenExp.toNat = 1 := by
  have hbyte : (BitVec.ofNat 8 n).toNat = n := by rw [BitVec.toNat_ofNat]; omega
  obtain ⟨-, hlif, -, -, -, -, haccepted⟩ := firstByteTable (BitVec.ofNat 8 n)
  rw [hbyte] at hlif haccepted
  obtain ⟨-, hheader, hdata⟩ := hlif ⟨hpos, hn⟩
  have hok : badFormat (BitVec.ofNat 8 n) = false := haccepted (by omega)
  have hnz : lengthInFormat (BitVec.ofNat 8 n) ≠ 0#6 := fun hz => by
    rw [formatDataLength_toNat, hz, BitVec.toNat_ofNat, Nat.zero_mod] at hdata
    omega
  refine ⟨_, .cons (feed_first h0 hok) (.nil _), ?_, ?_⟩
  · rw [takeHeaderByte_startFrame _ f h0, hheader, if_neg hnz]
    exact ⟨(by decide : (1#3 : BitVec 3) ≠ 0#3), rfl, hdata, hdrx⟩
  · rw [takeHeaderByte_startFrame _ f h0, hheader]
    rfl

/-- The first byte of the long header announces one more header byte and carries no length (R80, R143). -/
theorem feed_longHeader_first {f : Frame} (h0 : f.hrx = 0#3) :
    ∃ g, feed 0x00#8 f = some (.needMore, g) ∧ g.hrx = 1#3 ∧ g.hlenExp = 2#3 ∧ g.drx = f.drx ∧ lengthInFormat g.format = 0#6 := by
  refine ⟨_, feed_first h0 rfl, ?_⟩
  rw [takeHeaderByte_startFrame _ f h0]
  exact ⟨rfl, rfl, rfl, congrArg lengthInFormat (Vector.getElem_set_self _)⟩

/-- The second byte of the long header is the length byte (R80, R145). -/
theorem takesAll_longHeader {f : Frame} (l : Byte) (h0 : f.hrx = 0#3) (hdrx : f.drx = 0#9) :
    ∃ g, TakesAll f [0x00#8, l] g ∧ g.DataDue l.toNat ∧ g.hlenExp.toNat = 2 := by
  obtain ⟨k, hfirst, hhrx, hhlen, hkdrx, hformat⟩ := feed_longHeader_first h0
  have hk0 : k.hrx ≠ 0#3 := by rw [hhrx]; decide
  have hl : k.hrx < k.hlenExp := by rw [hhrx, hhlen]; decide
  have hlast : k.hrx + 1#3 = k.hlenExp := by rw [hhrx, hhlen]; rfl
  have hdue : k.lengthByteDue = true := decide_eq_true ⟨hl, hlast, hformat⟩
  refine ⟨takeHeaderByte l k, .cons hfirst (.cons (feed_header hk0 hl) (.nil _)), ⟨?_, ?_, ?_, ?_⟩, ?_⟩
  · rw [takeHeaderByte_hrx]; exact hrx_add_one_ne_zero hl
  · rw [takeHeaderByte_hrx, takeHeaderByte_hlenExp, hlast]
  · rw [takeHeaderByte_dlenExp l hk0 hl, if_pos hdue]
  · rw [takeHeaderByte_drx, hkdrx, hdrx]
  · rw [takeHeaderByte_hlenExp, hhlen]; rfl

/-- A transmit header is taken whole and announces its own length and the length it was built from (R172). -/
theorem takesAll_txHeader {f : Frame} {n : Nat} (h0 : f.hrx = 0#3) (hdrx : f.drx = 0#9) (hpos : 1 ≤ n) (hn : n ≤ 255) :
    ∃ g, TakesAll f (txHeader n) g ∧ g.DataDue n ∧ g.hlenExp.toNat = (txHeader n).length := by
  by_cases hshort : n ≤ 63
  · rw [txHeader_short hshort]
    exact takesAll_shortHeader h0 hdrx hpos hshort
  · rw [txHeader_long (by omega)]
    obtain ⟨g, htake, hdue, hlen⟩ := takesAll_longHeader (BitVec.ofNat 8 n) h0 hdrx
    rw [BitVec.toNat_ofNat, Nat.mod_eq_of_lt (by omega)] at hdue
    exact ⟨g, htake, hdue, hlen⟩

/-- Data bytes up to the announced length are all taken, and the header's counts stay (R146). -/
theorem takesAll_data {f : Frame} {w : List Byte} (h0 : f.hrx ≠ 0#3) (heq : f.hrx = f.hlenExp)
    (hd : f.drx.toNat + w.length = f.dlenExp.toNat) :
    ∃ g, TakesAll f w g ∧ g.ChecksumDue ∧ g.hlenExp = f.hlenExp ∧ g.dlenExp = f.dlenExp := by
  induction w generalizing f with
  | nil => exact ⟨f, .nil f, ⟨h0, heq, hd⟩, rfl, rfl⟩
  | cons b w ih =>
    rw [List.length_cons] at hd
    have hb := feed_dataByte b h0 heq (by omega)
    have hcount := drx_add_one_toNat (f := f) (by omega)
    obtain ⟨g, hw, hdue, hlen, hdata⟩ := ih (f := takeDataByte b f) h0 heq (by
      rw [takeDataByte_drx, takeDataByte_dlenExp]; omega)
    exact ⟨g, .cons hb hw, hdue, hlen, hdata⟩

/-- From a reset frame the header and the payload of a send are taken, and leave the payload in the buffer with its checksum due (R171). -/
theorem takesAll_headerAndPayload (f : Frame) {p : List Byte} (hpos : 1 ≤ p.length) (hp : p.length ≤ 255) :
    ∃ g, TakesAll f.zeroCounts (txHeader p.length ++ p) g ∧ g.ChecksumDue ∧
      g.dlenExp.toNat = p.length ∧ g.hlenExp.toNat = (txHeader p.length).length ∧ g.data = p := by
  obtain ⟨k, hheader, ⟨h0, heq, hdlen, hdrx⟩, hhlen⟩ := takesAll_txHeader (f := f.zeroCounts) rfl rfl hpos hp
  obtain ⟨g, hdata, hdue, hh, hd⟩ := takesAll_data (w := p) h0 heq (by rw [hdrx, hdlen]; exact Nat.zero_add _)
  have hall := hheader.append hdata
  obtain ⟨hi, hrec⟩ := hall.received (zeroCounts_zero f).inv
  rw [received_zeroCounts, List.nil_append, ← hdue.received] at hrec
  have hlength : g.header.length = (txHeader p.length).length := by
    have h4 : g.hlenExp.toNat ≤ Config.hbufSize := hi.header_legal
    rw [Frame.header, List.length_take, Vector.length_toList, Nat.min_eq_left h4, hh, hhlen]
  exact ⟨g, hall, hdue, hd ▸ hdlen, hh ▸ hhlen, (List.append_inj hrec hlength).2⟩

/-- Bytes that leave the checksum due, with their sum behind them, decode to Done on the last byte (R147). -/
theorem decodeFrame_withChecksum {u : List Byte} {f k : Frame} (hu : TakesAll f.zeroCounts u k) (hdue : k.ChecksumDue) :
    decodeFrame (withChecksum u) f = some (.done, takeDataByte (sum8 u) k, (withChecksum u).length) := by
  obtain ⟨-, hrec⟩ := hu.received (zeroCounts_zero f).inv
  have hdone : feed (sum8 u) k = some (.done, takeDataByte (sum8 u) k) := by
    rw [hdue.feed, hrec, received_zeroCounts, List.nil_append, if_pos rfl]
  rw [withChecksum, decodeFrame, hu.feedAll_append, feedAll_cons_ends hdone (by decide), List.length_append, Nat.add_comm]
  rfl

/-- Settles O34: the header announces the payload's length, the payload fills the data, and the encoder's checksum is the sum the decoder computes. -/
theorem encodedPayloadDecodes : Obligations.EncodedPayloadDecodes := by
  intro p f hpos hp
  obtain ⟨k, hk, hdue, hdlen, hhlen, hdata⟩ := takesAll_headerAndPayload f hpos hp
  refine ⟨takeDataByte (sum8 (txHeader p.length ++ p)) k, ?_, ?_, ?_, ?_⟩
  · rw [roundTrip, encodeFrame_whole hp, decodeFrame_withChecksum hk hdue]
  · rw [takeDataByte_dlenExp, hdlen]
  · rw [takeDataByte_data _ k hdue.data_taken, hdata]
  · rw [takeDataByte_hlenExp, hhlen, length_txHeader]

/-! ## The send -/

theorem exec_feSend_hold {p : List Byte} {length : Nat} {s : State} (hm : s.mode = .hold) (hp : min length 255 ≤ p.length) :
    exec (.feSend p length) s = .next (spendAcc8 (transmit (encodeFrame p length) s)) :=
  (if_neg (not_not.mpr hm)).trans (if_neg (Nat.not_lt.mpr hp))

theorem exec_feSend_short {p : List Byte} {length : Nat} {s : State} (hm : s.mode = .hold) (hp : p.length < min length 255) :
    exec (.feSend p length) s = .refused .payloadShort := (if_neg (not_not.mpr hm)).trans (if_pos hp)

theorem exec_feSend_refused (p : List Byte) (length : Nat) {s : State} (hm : s.mode ≠ .hold) :
    exec (.feSend p length) s = .refused .sendOutsideHold := if_pos hm

/-- Settles O37: the two conditions of a send, in the order they are tested. -/
theorem sendRefusals : Obligations.SendRefusals :=
  ⟨fun p length _ hm => exec_feSend_refused p length hm, fun _ _ _ hm hp => exec_feSend_short hm hp⟩

/-- The three parts of an encoded frame, the checksum in the true sum of the payload (R160, R163). -/
theorem encodeFrame_eq (p : List Byte) (length : Nat) : encodeFrame p length =
    txHeader (min length 255) ++ p.take (min length 255)
      ++ [BitVec.ofNat 8 (min length 255 + ((p.take (min length 255)).map BitVec.toNat).sum)] := by
  rw [encodeFrame, txChecksum_eq_ofNat]
  rfl

/-- The header and the checksum are two bytes up to a length of 63, and three above (R161). -/
theorem length_encodeFrame {p : List Byte} {length : Nat} (hp : min length 255 ≤ p.length) :
    (encodeFrame p length).length = min length 255 + if min length 255 ≤ 63 then 2 else 3 := by
  rw [encodeFrame_eq, List.length_append, List.length_append, length_txHeader, List.length_take, Nat.min_eq_left hp,
    List.length_singleton]
  split <;> omega

/-- Settles O36: the send transmits the encoded frame and spends the accumulator. -/
theorem sendPutsTheFrameOnTheWire : Obligations.SendPutsTheFrameOnTheWire := by
  intro p length s hm hp
  exact ⟨_, encodeFrame p length, exec_feSend_hold hm hp, .of_mem_eq rfl, encodeFrame_eq p length, length_encodeFrame hp,
    txLog_transmit (encodeFrame p length) s, rfl⟩

end Sys2Proof.Machine

/-! PROOFS. The record of the ports and the parameters: what a step can put out is said once, for an operation and for a step, and only the two transmit
headers and FE.SEND, which run in HOLD, transmit (spec/43_frame_encoder.md R168, spec/10_state.md R34). -/

namespace Sys2Proof.Machine

/-! ## What the block can put out -/

/-- Everything a step but for reset does at the ports, from `s` to `t`: the parameters stay and outputs are appended to the record. -/
inductive PortMove (s : State) (t : State) : Prop where
  /-- No output is a transmitted byte. -/
  | silent (os : List Output) (hparams : t.params = s.params) (htrace : t.trace = s.trace ++ os)
      (hos : os.filterMap Output.txByte? = [])
  /-- In HOLD bytes may be transmitted (R168). -/
  | sends (os : List Output) (hmode : s.mode = .hold) (hparams : t.params = s.params) (htrace : t.trace = s.trace ++ os)

namespace PortMove

variable {s t u : State}

/-- Nothing is put out. -/
theorem nothing (hparams : t.params = s.params) (htrace : t.trace = s.trace) : PortMove s t :=
  .silent [] hparams (by rw [htrace, List.append_nil]) rfl

theorem keeps_params (h : PortMove s t) : t.params = s.params := by
  cases h with
  | silent _ hparams _ _ => exact hparams
  | sends _ _ hparams _ => exact hparams

theorem trace_grows (h : PortMove s t) : ∃ os, t.trace = s.trace ++ os := by
  cases h with
  | silent os _ htrace _ => exact ⟨os, htrace⟩
  | sends os _ _ htrace => exact ⟨os, htrace⟩

/-- Outside HOLD the transmit log stays. -/
theorem txLog_eq (h : PortMove s t) (hm : s.mode ≠ .hold) : t.txLog = s.txLog := by
  cases h with
  | silent os _ htrace hos => rw [txLog_append s t os htrace, hos, List.append_nil]
  | sends _ hmode _ _ => exact absurd hmode hm

/-- The move depends on the mode, the parameters and the record before it only. -/
theorem of_agree (h : PortMove u t) (hmode : u.mode = s.mode) (hparams : u.params = s.params) (htrace : u.trace = s.trace) :
    PortMove s t := by
  cases h with
  | silent os hp ht hos => exact .silent os (hp.trans hparams) (htrace ▸ ht) hos
  | sends os hm hp ht => exact .sends os (hmode ▸ hm) (hp.trans hparams) (htrace ▸ ht)

end PortMove

/-! ## The operations -/

/-- Reading a range transmits nothing. -/
theorem memReads_silent (as : List Addr) (r : Result) :
    (as.map Output.memRead ++ [Output.result r]).filterMap Output.txByte? = [] := by
  simp [List.filterMap_eq_nil_iff, Output.txByte?]

section

variable {s t : State}

/-- An operation that is refused under a condition and else goes on to `u` does at the ports what `u` does. -/
theorem portMove_of_guarded {c : Prop} [Decidable c] {r : Refusal} {u : State} (h : (if c then .refused r else .next u) =
    (.next t : Host.Outcome State Fault Refusal)) (hu : PortMove s u) : PortMove s t := by
  obtain ⟨-, h⟩ := next_of_guarded h
  cases h
  exact hu

theorem transmit_portMove (bs : List Byte) (hm : s.mode = .hold) : PortMove s (transmit bs s) :=
  .sends _ hm (transmit_params bs s) (transmit_trace bs s)

theorem execTxhShort_portMove {l : BitVec 6} (h : execTxhShort l s = .next t) : PortMove s t := by
  obtain ⟨hm, h⟩ := next_of_guarded h
  cases h
  exact transmit_portMove _ (not_not.mp hm)

theorem execTxhLong_portMove {l : Byte} (h : execTxhLong l s = .next t) : PortMove s t := by
  obtain ⟨hm, h⟩ := next_of_guarded h
  exact portMove_of_guarded h (transmit_portMove _ (not_not.mp hm))

theorem execFeSend_portMove {p : List Byte} {n : Nat} (h : execFeSend p n s = .next t) : PortMove s t := by
  obtain ⟨hm, h⟩ := next_of_guarded h
  exact portMove_of_guarded h (.sends _ (not_not.mp hm) (transmit_params (encodeFrame p n) s) (transmit_trace (encodeFrame p n) s))

/-- A feed puts out its result. -/
theorem feedState_ports {b : Byte} {r : FeedResult} (h : feedState b s = some (r, t)) :
    t.params = s.params ∧ t.trace = s.trace ++ [.result (.feed r)] := by
  obtain ⟨g, -, ht, -⟩ := feedState_cases h
  rw [ht]
  exact ⟨rfl, rfl⟩

theorem feedOp_portMove {b : Byte} (h : feedOp b s = .next t) : PortMove s t := by
  obtain ⟨r, hr⟩ := feedOp_next h
  obtain ⟨hparams, htrace⟩ := feedState_ports hr
  exact .silent _ hparams htrace rfl

@[simp] theorem reactToFeed_params (r : FeedResult) (s : State) : (reactToFeed r s).params = s.params := by cases r <;> rfl

/-- What follows the decoder's result: frame_done after Done, the resynchronization's outputs after an Error. -/
theorem reactToFeed_trace (r : FeedResult) (s : State) :
    ∃ os, (reactToFeed r s).trace = s.trace ++ os ∧ os.filterMap Output.txByte? = [] := by
  cases r with
  | needMore => exact ⟨[], (List.append_nil _).symm, rfl⟩
  | done => exact ⟨[.frameDone], rfl, rfl⟩
  | error c => exact ⟨[.sessionReset, .linkReset], resync_trace s, rfl⟩

theorem execSyRxbyte_portMove {b : Byte} (h : execSyRxbyte b s = .next t) : PortMove s t := by
  cases hm : s.mode with
  | run =>
    rcases execSyRxbyte_run hm h with ⟨-, hr⟩ | ⟨r, u, hf, hu⟩
    · cases hr
    · cases hu
      obtain ⟨hparams, htrace⟩ := feedState_ports hf
      obtain ⟨os, hreact, hos⟩ := reactToFeed_trace r u
      exact .silent (.result (.feed r) :: os) (by rw [reactToFeed_params, hparams])
        (by rw [hreact, htrace, List.append_assoc, List.singleton_append]) hos
  | hold => simp only [execSyRxbyte, hm] at h; cases h; exact .nothing rfl rfl
  | purge => simp only [execSyRxbyte, hm] at h; cases h; exact .nothing rfl rfl

theorem resync_portMove (s : State) : PortMove s (resync s) := .silent _ (resync_params s) (resync_trace s) rfl

theorem execSyRxerr_portMove {k : LinkError} (h : execSyRxerr k s = .next t) : PortMove s t := by
  cases hm : s.mode <;> simp only [execSyRxerr, hm] at h <;> cases h
  case run => exact resync_portMove s
  case hold => exact .nothing rfl rfl
  case purge => exact .silent [.linkReset] rfl rfl rfl

theorem execSyQuiet_portMove {d : Nat} (h : execSyQuiet d s = .next t) : PortMove s t := by
  cases hm : s.mode <;> simp only [execSyQuiet, hm] at h
  case run => cases h; exact .nothing rfl rfl
  case hold => cases h; exact .nothing rfl rfl
  case purge => split at h <;> cases h <;> exact .nothing rfl rfl

/-- Everything an operation does at the ports when it goes on. -/
theorem exec_portMove {i : Instr} (h : exec i s = .next t) : PortMove s t := by
  cases i with
  | fmtBad x => exact feedOp_portMove h
  | fmtNLb => exact feedOp_portMove h
  | fmtALb x => exact feedOp_portMove h
  | fmtNLif l => exact feedOp_portMove h
  | fmtALif x l => exact feedOp_portMove h
  | txhShort l => exact execTxhShort_portMove h
  | txhLong l => exact execTxhLong_portMove h
  | sum8 bs => cases h; exact .silent [_] rfl rfl rfl
  | sumc8 bs => cases h; exact .silent [_] rfl rfl rfl
  | vsum8 bs e => cases h; exact .silent [_] rfl rfl rfl
  | vsumc8 bs e => cases h; exact .silent [_] rfl rfl rfl
  | crc16b bs => cases h; exact .silent [_] rfl rfl rfl
  | crc16m a n => exact portMove_of_guarded h (.silent _ rfl (List.append_assoc _ _ _) (memReads_silent _ _))
  | crc16v a n e => exact portMove_of_guarded h (.silent _ rfl (List.append_assoc _ _ _) (memReads_silent _ _))
  | fdReset => cases h; exact .nothing rfl rfl
  | fdFeed b => exact feedOp_portMove h
  | feSend p n => exact execFeSend_portMove h
  | syResync => exact portMove_of_guarded (next_of_guarded h).2 (resync_portMove s)
  | syPurge d => exact portMove_of_guarded h (.nothing rfl rfl)
  | syRelease => exact portMove_of_guarded h (.nothing rfl rfl)
  | syReinit d => exact portMove_of_guarded h (.silent [_] rfl rfl rfl)
  | syRxbyte b => exact execSyRxbyte_portMove h
  | syRxerr k => exact execSyRxerr_portMove h
  | syQuiet d => exact execSyQuiet_portMove h

/-! ## The step -/

/-- Everything an input other than reset does at the ports. -/
theorem runInput_portMove {i : Input} (h : runInput i s = .next t) (hi : i ≠ .reset) : PortMove s t := by
  rcases runInput_cases h with ⟨p, j, -, -, hx⟩ | ⟨r, -, -, v, ht⟩ | ⟨a, -, -, rfl⟩ | ⟨a, b, -, rfl⟩ | ⟨hreset, -⟩
  case inl => exact exec_portMove hx
  case inr.inl => rw [ht]; exact .silent [.hostRead r v] rfl rfl rfl
  case inr.inr.inl => exact .nothing (moveSession_params a s) (moveSession_trace a s)
  case inr.inr.inr.inl => exact .nothing rfl rfl
  case inr.inr.inr.inr => exact absurd hreset hi

/-- Everything a step does at the ports, but for reset, which keeps the parameters (R271). -/
theorem step_portMove (h : step s = .next t) :
    PortMove s t ∨ (t.params = s.params ∧ ∃ u, fetch s = some (.reset, u)) := by
  rcases step_cases h with ⟨-, rfl⟩ | ⟨i, u, hf, hr⟩
  · exact .inl (.nothing rfl rfl)
  · obtain ⟨hu, -⟩ := fetch_eq hf
    have hparams : u.params = s.params := by rw [hu]
    by_cases hi : i = .reset
    · subst hi
      cases hr
      exact .inr ⟨hparams, u, hf⟩
    · exact .inl ((runInput_portMove hr hi).of_agree (by rw [hu]) hparams (by rw [hu]))

end

/-- Settles O57: a step that is no reset appends to the record, and transmits in HOLD only. -/
theorem portsOnlyAddAndTransmitOnlyInHold : Obligations.PortsOnlyAddAndTransmitOnlyInHold := by
  intro s t h
  rcases step_portMove h with hmove | ⟨hparams, hreset⟩
  · exact ⟨hmove.keeps_params, .inr ⟨hmove.trace_grows, hmove.txLog_eq⟩⟩
  · exact ⟨hparams, .inl hreset⟩

end Sys2Proof.Machine

/-! PROOFS. The synchronizer, operation by operation (spec/44_synchronizer.md): an equation for each operation in each mode, and from these the effects and
refusals of R181 to R193. -/

namespace Sys2Proof.Machine

/-! ## The step on what it takes -/

theorem runInput_decoded {p : Packet} {i : Instr} (h : decode p = .ok i) (s : State) : runInput (.packet p) s = exec i s := by
  rw [runInput, h]

/-- Settles O5: the mode says which input is fetched, and the step runs it on the state without it. -/
theorem stepRunsTheDecodedOperation : Obligations.StepRunsTheDecodedOperation := by
  refine ⟨fun s p i rest hm hin hd => ?_, fun s p i events rest hm hev hp hin hd => ?_,
    fun s input rest hm hin => step_of_fetch (fetch_oldest hm hin),
    fun s input events rest hm hev hi hin => step_of_fetch (fetch_past_events hm hev hi hin)⟩
  · rw [step_of_fetch (fetch_oldest hm hin), runInput_decoded hd]
  · rw [step_of_fetch (fetch_past_events hm hev hp hin), runInput_decoded hd]

theorem step_of_fetch_none {s : State} (h : fetch s = none) : step s = .next s := by
  rw [step, h]

/-- In HOLD nothing is taken while only receive events wait (R178). -/
theorem fetch_only_events {s : State} (hm : s.mode = .hold) (he : ∀ e ∈ s.inputs, e.isEvent = true) : fetch s = none := by
  simp only [fetch, hm, takeHostInput_events s.inputs he]

theorem fetch_no_inputs {s : State} (hin : s.inputs = []) : fetch s = none := by
  cases hm : s.mode with
  | hold => exact fetch_only_events hm (by simp [hin])
  | run => simp only [fetch, hm, hin]
  | purge => simp only [fetch, hm, hin]

/-! ## A reaction to a receive event in HOLD -/

/-- The operation is a reaction to a receive event (spec/30_encoding.md R84). -/
def IsReaction (i : Instr) : Prop := (∃ b, i = .syRxbyte b) ∨ (∃ k, i = .syRxerr k) ∨ ∃ d, i = .syQuiet d

/-- In HOLD the event of any reaction stays with the transport (R178). -/
theorem exec_reaction_hold {i : Instr} {s : State} (hm : s.mode = .hold) (hi : IsReaction i) :
    exec i s = .next (leaveWithTransport i s) := by
  rcases hi with ⟨b, rfl⟩ | ⟨k, rfl⟩ | ⟨d, rfl⟩
  · simp only [exec, execSyRxbyte, hm]
  · simp only [exec, execSyRxerr, hm]
  · simp only [exec, execSyQuiet, hm]

/-- Settles O7: nothing is fetched without an input, nor in HOLD from events alone, and a reaction run in HOLD puts its event back. -/
theorem nothingTakenNothingChanges : Obligations.NothingTakenNothingChanges :=
  ⟨fun _ hin => step_of_fetch_none (fetch_no_inputs hin), fun _ hm he => step_of_fetch_none (fetch_only_events hm he),
    fun _ _ hm hi => exec_reaction_hold hm hi⟩

/-! ## A received byte -/

/-- In RUN the byte is fed, and what follows depends on the decoder's result (R181, R183). -/
theorem exec_syRxbyte_of_feedState {b : Byte} {s u : State} {r : FeedResult} (hm : s.mode = .run) (h : feedState b s = some (r, u)) :
    exec (.syRxbyte b) s = .next (reactToFeed r u) := by
  simp only [exec, execSyRxbyte, hm, h]

/-- In RUN the state after a byte, from the feed on the frame. -/
theorem exec_syRxbyte_run {b : Byte} {s : State} {r : FeedResult} {g : Frame} (hm : s.mode = .run) (h : feed b s.frame = some (r, g)) :
    ∃ u, exec (.syRxbyte b) s = .next (reactToFeed r u) ∧
      u = { s with frame := g, trace := s.trace ++ [.result (.feed r)], owesResync := r.isError,
                   acc8 := u.acc8, fresh := u.fresh } ∧
      (r.usesSum = false → u.acc8 = s.acc8 ∧ u.fresh = s.fresh) := by
  obtain ⟨u, -, hfed, hu, hkept⟩ := feedOp_eq h
  simp only [hm, beq_self_eq_true, Bool.and_true] at hu
  exact ⟨u, exec_syRxbyte_of_feedState hm hfed, by rw [hm]; exact hu, hkept⟩

/-- Settles O41: the fed state is known from the feed on the frame, and each result adds its own effect to it. -/
theorem receivedByteInRun : Obligations.ReceivedByteInRun := by
  intro b s g hm
  refine ⟨fun h => ?_, fun h => ?_, fun c h => ?_⟩
  · obtain ⟨u, hexec, hu, hkept⟩ := exec_syRxbyte_run hm h
    obtain ⟨hacc, hfresh⟩ := hkept rfl
    rw [hacc, hfresh] at hu
    exact ⟨u, hexec, .of_mem_eq (exec_mem hexec), hu⟩
  · obtain ⟨u, hexec, hu, -⟩ := exec_syRxbyte_run hm h
    refine ⟨_, hexec, .of_mem_eq (exec_mem hexec), ?_⟩
    rw [reactToFeed, hu]
    simp [State.emit, FeedResult.isError]
  · obtain ⟨u, hexec, hu, -⟩ := exec_syRxbyte_run hm h
    refine ⟨_, hexec, .of_mem_eq (exec_mem hexec), ?_⟩
    rw [reactToFeed, resync_eq, hu]
    simp [Frame.zeroCounts]

/-! ## The resynchronization -/

theorem exec_syRxerr_run (k : LinkError) {s : State} (hm : s.mode = .run) : exec (.syRxerr k) s = .next (resync s) := by
  simp only [exec, execSyRxerr, hm]

/-- Settles O42: in RUN the reaction to a link error is the resynchronization. -/
theorem linkErrorForcesResynchronization : Obligations.LinkErrorForcesResynchronization := fun k _ hm =>
  exists_next_sameMemory ((exec_syRxerr_run k hm).trans (congrArg _ (resync_eq _))) rfl

theorem exec_syResync_owed {s : State} (hm : s.mode = .run) (ho : s.owesResync = true) : exec .syResync s = .next (resync s) :=
  (if_neg (not_not.mpr hm)).trans (if_neg (by simp [ho]))

theorem exec_syResync_outside_run {s : State} (hm : s.mode ≠ .run) : exec .syResync s = .refused .resyncOutsideRun := if_pos hm

theorem exec_syResync_without_error {s : State} (hm : s.mode = .run) (ho : s.owesResync = false) :
    exec .syResync s = .refused .resyncWithoutError := (if_neg (not_not.mpr hm)).trans (if_pos ho)

/-- In RUN a byte whose feed ends in an error, fed by itself, leaves a resynchronization owed, and the two operations together are the reaction to
the received byte (spec/42_frame_decoder.md R149). -/
theorem exec_fdFeed_then_syResync {b : Byte} {s : State} {c : Cause} {g : Frame} (hm : s.mode = .run)
    (h : feed b s.frame = some (.error c, g)) :
    ∃ t, exec (.fdFeed b) s = .next t ∧ t.owesResync = true ∧ exec .syResync t = exec (.syRxbyte b) s := by
  obtain ⟨t, hop, hfed, ht, -⟩ := feedOp_eq h
  have hmode : t.mode = .run := by rw [ht]; exact hm
  have howes : t.owesResync = true := by rw [ht]; simp [FeedResult.isError, hm]
  exact ⟨t, hop, howes, (exec_syResync_owed hmode howes).trans (exec_syRxbyte_of_feedState hm hfed).symm⟩

/-- Settles O43: SY.RESYNC tests the mode, then whether an error is owed it, and where both hold does what the model's trap does. -/
theorem resynchronizationEffects : Obligations.ResynchronizationEffects :=
  ⟨fun _ hm ho => exists_next_sameMemory ((exec_syResync_owed hm ho).trans (congrArg _ (resync_eq _))) rfl,
    fun _ hm => exec_syResync_outside_run hm, fun _ hm ho => exec_syResync_without_error hm ho,
    fun _ _ _ _ hm h => exec_fdFeed_then_syResync hm h⟩

/-! ## A Quiet event -/

theorem exec_syQuiet_run (d : Nat) {s : State} (hm : s.mode = .run) : exec (.syQuiet d) s = .next s := by
  simp only [exec, execSyQuiet, hm]

theorem exec_syQuiet_short {d : Nat} {s : State} (hm : s.mode = .purge) (hd : s.quiet + d < s.pT) :
    exec (.syQuiet d) s = .next (addQuiet d s) := by
  simp only [exec, execSyQuiet, hm, if_neg (Nat.not_le.mpr hd)]

theorem exec_syQuiet_ends {d : Nat} {s : State} (hm : s.mode = .purge) (hd : s.pT ≤ s.quiet + d) :
    exec (.syQuiet d) s = .next (endPurge s) := by
  simp only [exec, execSyQuiet, hm, if_pos hd]

/-- What was heard before does not matter to the end of a purge. -/
theorem endPurge_addQuiet (d : Nat) (s : State) : endPurge (addQuiet d s) = endPurge s := rfl

theorem addQuiet_addQuiet (d e : Nat) (s : State) : addQuiet e (addQuiet d s) = addQuiet (d + e) s := by
  simp only [addQuiet, Nat.add_assoc]

/-- In a purge the second of two Quiet events finds the first one's silence counted, and after a purge that returned to RUN it changes nothing (R176). -/
theorem exec_syQuiet_adjacent_purge {d e : Nat} {s t : State} (hm : s.mode = .purge) (h : exec (.syQuiet d) s = .next t)
    (ht : t.mode ≠ .hold) : exec (.syQuiet e) t = exec (.syQuiet (d + e)) s := by
  by_cases hd : s.pT ≤ s.quiet + d
  · rw [exec_syQuiet_ends hm hd] at h
    cases h
    rw [exec_syQuiet_ends hm (by omega)]
    refine exec_syQuiet_run e ?_
    rw [endPurge_mode] at ht ⊢
    cases hret : s.pret with
    | run => rfl
    | hold => rw [hret] at ht; exact absurd rfl ht
  · rw [exec_syQuiet_short hm (by omega)] at h
    cases h
    have hpurge : (addQuiet d s).mode = .purge := hm
    by_cases hde : s.pT ≤ s.quiet + (d + e)
    · rw [exec_syQuiet_ends hm hde, exec_syQuiet_ends hpurge (by simp only [addQuiet_pT, addQuiet_quiet]; omega), endPurge_addQuiet]
    · rw [exec_syQuiet_short hm (by omega), exec_syQuiet_short hpurge (by simp only [addQuiet_pT, addQuiet_quiet]; omega),
        addQuiet_addQuiet]

theorem exec_syQuiet_adjacent {d e : Nat} {s t : State} (hm : s.mode ≠ .hold) (h : exec (.syQuiet d) s = .next t) (ht : t.mode ≠ .hold) :
    exec (.syQuiet e) t = exec (.syQuiet (d + e)) s := by
  cases hmode : s.mode with
  | hold => exact absurd hmode hm
  | run =>
    rw [exec_syQuiet_run d hmode] at h
    cases h
    rw [exec_syQuiet_run e hmode, exec_syQuiet_run (d + e) hmode]
  | purge => exact exec_syQuiet_adjacent_purge hmode h ht

/-- Settles O44: the three equations of a Quiet event, and the law of two adjacent ones. -/
theorem quietEvent : Obligations.QuietEvent :=
  ⟨fun d _ hm => exec_syQuiet_run d hm, fun _ _ hm hd => exists_next_sameMemory (exec_syQuiet_short hm hd) rfl,
    fun _ _ hm hd => exists_next_sameMemory (exec_syQuiet_ends hm hd) rfl,
    fun _ _ _ _ hm h ht => exec_syQuiet_adjacent hm h ht⟩

/-! ## Bytes and link errors in a purge -/

theorem exec_syRxbyte_purge (b : Byte) {s : State} (hm : s.mode = .purge) : exec (.syRxbyte b) s = .next (breakQuiet s) := by
  simp only [exec, execSyRxbyte, hm]

theorem exec_syRxerr_purge (k : LinkError) {s : State} (hm : s.mode = .purge) :
    exec (.syRxerr k) s = .next (linkReset (breakQuiet s)) := by
  simp only [exec, execSyRxerr, hm]

/-- Settles O45: both break the silence, and a link error resets the link. -/
theorem purgeDiscards : Obligations.PurgeDiscards :=
  ⟨fun b _ hm => exists_next_sameMemory (exec_syRxbyte_purge b hm) rfl,
    fun k _ hm => exists_next_sameMemory (exec_syRxerr_purge k hm) rfl⟩

/-! ## The host's operations -/

theorem exec_syPurge_hold (d : Nat) {s : State} (hm : s.mode = .hold) : exec (.syPurge d) s = .next (enterPurge d .hold s) :=
  if_neg (not_not.mpr hm)

theorem exec_syPurge_refused (d : Nat) {s : State} (hm : s.mode ≠ .hold) : exec (.syPurge d) s = .refused .purgeOutsideHold := if_pos hm

/-- Settles O46: in HOLD the host's purge enters a purge that returns to HOLD. -/
theorem hostPurge : Obligations.HostPurge :=
  ⟨fun d _ hm => exists_next_sameMemory (exec_syPurge_hold d hm) rfl, fun d _ hm => exec_syPurge_refused d hm⟩

theorem exec_syRelease_hold {s : State} (hm : s.mode = .hold) : exec .syRelease s = .next { resetFrame s with mode := .run } :=
  if_neg (not_not.mpr hm)

theorem exec_syRelease_refused {s : State} (hm : s.mode ≠ .hold) : exec .syRelease s = .refused .releaseOutsideHold := if_pos hm

/-- Settles O47: in HOLD the release is a frame reset and the mode RUN. -/
theorem releaseEndsTheHold : Obligations.ReleaseEndsTheHold :=
  ⟨fun _ hm => exists_next_sameMemory (exec_syRelease_hold hm) rfl, fun _ hm => exec_syRelease_refused hm⟩

theorem exec_syReinit_hold (div : Nat) {s : State} (hm : s.mode = .hold) : exec (.syReinit div) s = .next (s.emit (.linkReinit div)) :=
  if_neg (not_not.mpr hm)

theorem exec_syReinit_refused (div : Nat) {s : State} (hm : s.mode ≠ .hold) : exec (.syReinit div) s = .refused .reinitOutsideHold :=
  if_pos hm

/-- Settles O48: in HOLD the reinitialization is one output. -/
theorem reinitializationPassesTheDivisor : Obligations.ReinitializationPassesTheDivisor :=
  ⟨fun div _ hm => ⟨_, exec_syReinit_hold div hm, rfl, .of_mem_eq rfl⟩, fun div _ hm => exec_syReinit_refused div hm⟩

/-- Settles O60: none of the three operations leaves HOLD before the purge, each appends to the record, and only the purge touches anything else. -/
theorem setSpeedAcknowledgesFirst : Obligations.SetSpeedAcknowledgesFirst := by
  intro ack div s hm _
  refine ⟨_, _, _, exec_feSend_hold hm (Nat.min_le_left _ _), exec_syReinit_hold div hm, exec_syPurge_hold s.params.tSettle hm,
    ?_, rfl, rfl, rfl, rfl, rfl, rfl⟩
  simp

end Sys2Proof.Machine

/-! PROOFS. The synchronizer over all operations and steps: what an operation can do to the mode and to what the modes promise is said once, and from it
follow the table of transitions (spec/44_synchronizer.md R177), the ways out of a purge (R188, R189) and the invariant (R194). -/

namespace Sys2Proof.Machine

/-! ## What no mode's promise speaks of -/

/-- From `s` to `t` nothing changes that a mode's promise or its table speaks of; the receiver, the accumulators, the parameters, the memory, the inputs and the
record may, but the receiver is not switched off. -/
structure Beside (s t : State) : Prop where
  eq : t = { s with rxen := t.rxen, acc8 := t.acc8, crc := t.crc, params := t.params, mem := t.mem, inputs := t.inputs,
                    trace := t.trace, fresh := t.fresh }
  rxen : s.rxen = true → t.rxen = true

namespace Beside

variable {s t : State}

theorem frame (h : Beside s t) : t.frame = s.frame := by rw [h.eq]
theorem mode (h : Beside s t) : t.mode = s.mode := by rw [h.eq]
theorem pT (h : Beside s t) : t.pT = s.pT := by rw [h.eq]
theorem pret (h : Beside s t) : t.pret = s.pret := by rw [h.eq]
theorem link (h : Beside s t) : t.link = s.link := by rw [h.eq]
theorem flash (h : Beside s t) : t.flash = s.flash := by rw [h.eq]
theorem quiet (h : Beside s t) : t.quiet = s.quiet := by rw [h.eq]
theorem owesResync (h : Beside s t) : t.owesResync = s.owesResync := by rw [h.eq]

theorem promise (h : Beside s t) : ModePromise t ↔ ModePromise s := by
  simp only [ModePromise, h.mode, h.pret, h.frame, h.link, h.flash]

/-- The invariant of the synchronizer speaks of nothing else. -/
theorem keeps_inv (h : Beside s t) (hi : s.Inv) : t.Inv where
  frame_inv := h.frame ▸ hi.frame_inv
  receiver_on := h.rxen hi.receiver_on
  promise := h.promise.mpr hi.promise
  quiet_in_purge := by rw [h.mode, h.quiet]; exact hi.quiet_in_purge
  quiet_short := by rw [h.quiet, h.pT]; exact hi.quiet_short

end Beside

/-! ## What an operation can do -/

/-- Everything an operation does, from `s` to `t`, to what the modes promise. -/
inductive SyncMove (i : Instr) (s t : State) : Prop where
  /-- Nothing. -/
  | stays (h : Beside s t)
  /-- The decoder is driven from outside the synchronizer (log entry 11). -/
  | drives (hown : Instr.synchronizersOwn i = true) (hmode : t.mode = s.mode)
  /-- A byte in RUN after which the frame needs more (R181). -/
  | takes (g : Frame) (b : Byte) (hm : s.mode = .run) (hi : i = .syRxbyte b) (hf : feed b s.frame = some (.needMore, g))
      (h : Beside { s with frame := g, owesResync := false } t)
  /-- The last byte of a valid frame in RUN (R183). -/
  | holds (g : Frame) (b : Byte) (hm : s.mode = .run) (hi : i = .syRxbyte b) (hf : feed b s.frame = some (.done, g))
      (h : Beside { s with frame := g, owesResync := false, mode := .hold } t)
  /-- The resynchronization, on the frame as an error left it (R185). -/
  | resyncs (g : Frame) (hforces : ForcesResync i s) (h : Beside (resync { s with frame := g }) t)
  /-- The host's return from the handler (R190). -/
  | releases (hm : s.mode = .hold) (hi : i = .syRelease) (h : Beside { resetFrame s with mode := .run } t)
  /-- The host's purge (R187). -/
  | purges (d : Nat) (hm : s.mode = .hold) (hi : i = .syPurge d) (h : Beside (enterPurge d .hold s) t)
  /-- An event in PURGE after which the silence is still too short (R188). -/
  | hears (q : Nat) (hm : s.mode = .purge) (hq : q = 0 ∨ q < s.pT) (h : Beside { s with quiet := q } t)
  /-- A Quiet event that makes up the quiet period (R176, R188). -/
  | ends (d : Nat) (hm : s.mode = .purge) (hi : i = .syQuiet d) (hd : s.pT ≤ s.quiet + d) (h : Beside (endPurge s) t)

section

variable {s t : State} {i : Instr}

/-- An operation refused under a condition, and else going on to `u`, moves as `u` does where the condition fails. -/
theorem syncMove_of_guarded {c : Prop} [Decidable c] {r : Refusal} {u : State} (h : (if c then .refused r else .next u) =
    (.next t : Host.Outcome State Fault Refusal)) (hu : ¬ c → SyncMove i s u) : SyncMove i s t := by
  obtain ⟨hc, h⟩ := next_of_guarded h
  cases h
  exact hu hc

theorem feedOp_syncMove {b : Byte} (hown : Instr.synchronizersOwn i = true) (h : feedOp b s = .next t) : SyncMove i s t := by
  obtain ⟨r, hr⟩ := feedOp_next h
  obtain ⟨g, -, ht, -⟩ := feedState_cases hr
  exact .drives hown (by rw [ht])

/-- In HOLD a reaction changes nothing but the inputs. -/
theorem reaction_hold_syncMove (hm : s.mode = .hold) (hi : IsReaction i) (h : exec i s = .next t) : SyncMove i s t := by
  rw [exec_reaction_hold hm hi] at h
  cases h
  exact .stays ⟨rfl, id⟩

theorem syRxbyte_run_syncMove {b : Byte} (hm : s.mode = .run) (h : exec (.syRxbyte b) s = .next t) : SyncMove (.syRxbyte b) s t := by
  cases hf : feed b s.frame with
  | none =>
    rcases execSyRxbyte_run hm h with ⟨-, hr⟩ | ⟨r, u, hu, -⟩
    · cases hr
    · rw [feedState_frame hu] at hf; cases hf
  | some x =>
    obtain ⟨r, g⟩ := x
    obtain ⟨u, hexec, hu, -⟩ := exec_syRxbyte_run hm hf
    rw [hexec] at h
    cases h
    rw [hu]
    cases r with
    | needMore => exact .takes g b hm rfl hf ⟨rfl, id⟩
    | done => exact .holds g b hm rfl hf ⟨rfl, id⟩
    | error c => exact .resyncs g ⟨hm, .inr (.inr ⟨b, c, g, rfl, hf⟩)⟩ ⟨rfl, id⟩

theorem syRxbyte_syncMove {b : Byte} (h : exec (.syRxbyte b) s = .next t) : SyncMove (.syRxbyte b) s t := by
  cases hm : s.mode with
  | run => exact syRxbyte_run_syncMove hm h
  | hold => exact reaction_hold_syncMove hm (.inl ⟨b, rfl⟩) h
  | purge =>
    rw [exec_syRxbyte_purge b hm] at h
    cases h
    exact .hears 0 hm (.inl rfl) ⟨rfl, id⟩

theorem syRxerr_syncMove {k : LinkError} (h : exec (.syRxerr k) s = .next t) : SyncMove (.syRxerr k) s t := by
  cases hm : s.mode with
  | run =>
    rw [exec_syRxerr_run k hm] at h
    cases h
    exact .resyncs s.frame ⟨hm, .inr (.inl ⟨k, rfl⟩)⟩ ⟨rfl, id⟩
  | hold => exact reaction_hold_syncMove hm (.inr (.inl ⟨k, rfl⟩)) h
  | purge =>
    rw [exec_syRxerr_purge k hm] at h
    cases h
    exact .hears 0 hm (.inl rfl) ⟨rfl, fun _ => rfl⟩

theorem syQuiet_syncMove {d : Nat} (h : exec (.syQuiet d) s = .next t) : SyncMove (.syQuiet d) s t := by
  cases hm : s.mode with
  | run =>
    rw [exec_syQuiet_run d hm] at h
    cases h
    exact .stays ⟨rfl, id⟩
  | hold => exact reaction_hold_syncMove hm (.inr (.inr ⟨d, rfl⟩)) h
  | purge =>
    by_cases hd : s.pT ≤ s.quiet + d
    · rw [exec_syQuiet_ends hm hd] at h
      cases h
      exact .ends d hm rfl hd ⟨rfl, id⟩
    · rw [exec_syQuiet_short hm (by omega)] at h
      cases h
      exact .hears (s.quiet + d) hm (.inr (by omega)) ⟨rfl, id⟩

theorem syResync_forces (h : exec .syResync s = .next t) : ForcesResync .syResync s ∧ t = resync s := by
  obtain ⟨hm, h⟩ := next_of_guarded h
  obtain ⟨ho, h⟩ := next_of_guarded h
  cases h
  exact ⟨⟨not_not.mp hm, .inl ⟨rfl, by simpa using ho⟩⟩, rfl⟩

/-- Everything an operation does, when it goes on, to what the modes promise. -/
theorem exec_syncMove (h : exec i s = .next t) : SyncMove i s t := by
  cases i with
  | fmtBad x => exact feedOp_syncMove rfl h
  | fmtNLb => exact feedOp_syncMove rfl h
  | fmtALb x => exact feedOp_syncMove rfl h
  | fmtNLif l => exact feedOp_syncMove rfl h
  | fmtALif x l => exact feedOp_syncMove rfl h
  | txhShort l => exact syncMove_of_guarded h fun _ => .stays ⟨rfl, fun _ => rfl⟩
  | txhLong l => exact syncMove_of_guarded (next_of_guarded h).2 fun _ => .stays ⟨rfl, fun _ => rfl⟩
  | sum8 bs => cases h; exact .stays ⟨rfl, id⟩
  | sumc8 bs => cases h; exact .stays ⟨rfl, id⟩
  | vsum8 bs e => cases h; exact .stays ⟨rfl, id⟩
  | vsumc8 bs e => cases h; exact .stays ⟨rfl, id⟩
  | crc16b bs => cases h; exact .stays ⟨rfl, id⟩
  | crc16m a n => exact syncMove_of_guarded h fun _ => .stays ⟨rfl, id⟩
  | crc16v a n e => exact syncMove_of_guarded h fun _ => .stays ⟨rfl, id⟩
  | fdReset => cases h; exact .drives rfl rfl
  | fdFeed b => exact feedOp_syncMove rfl h
  | feSend p n => exact syncMove_of_guarded (next_of_guarded h).2 fun _ => .stays ⟨rfl, fun _ => rfl⟩
  | syResync =>
    obtain ⟨hforces, rfl⟩ := syResync_forces h
    exact .resyncs s.frame hforces ⟨rfl, id⟩
  | syPurge d => exact syncMove_of_guarded h fun hm => .purges d (not_not.mp hm) rfl ⟨rfl, id⟩
  | syRelease => exact syncMove_of_guarded h fun hm => .releases (not_not.mp hm) rfl ⟨rfl, id⟩
  | syReinit d => exact syncMove_of_guarded h fun _ => .stays ⟨rfl, id⟩
  | syRxbyte b => exact syRxbyte_syncMove h
  | syRxerr k => exact syRxerr_syncMove h
  | syQuiet d => exact syQuiet_syncMove h

end

/-! ## The table of transitions -/

section

variable {s t : State}

/-- Only the listed moves change the mode (R177). -/
theorem SyncMove.modeMove {i : Instr} (h : SyncMove i s t) (hne : t.mode ≠ s.mode) : ModeMove i s t := by
  cases h with
  | stays h => exact absurd h.mode hne
  | drives _ hmode => exact absurd hmode hne
  | takes g b _ _ _ h => exact absurd h.mode hne
  | holds g b hm hi hf h => exact .inl ⟨hm, h.mode, b, g, hi, hf⟩
  | resyncs g hforces h => exact .inr (.inl ⟨h.mode, h.pret, hforces⟩)
  | releases hm hi h => exact .inr (.inr (.inl ⟨hm, h.mode, hi⟩))
  | purges d hm hi h => exact .inr (.inr (.inr (.inl ⟨hm, h.mode, h.pret, d, hi, h.pT⟩)))
  | hears q _ _ h => exact absurd h.mode hne
  | ends d hm hi hd h => exact .inr (.inr (.inr (.inr ⟨hm, h.mode, d, hi, hd⟩)))

/-- The state an input is taken from differs by the inputs only. -/
theorem fetch_beside {u : State} {i : Input} (h : fetch s = some (i, u)) : Beside s u := by
  obtain ⟨hu, -⟩ := fetch_eq h
  rw [hu]
  exact ⟨rfl, id⟩

theorem changeMemory_beside (a : Addr) (b : Byte) (s : State) : Beside s (changeMemory a b s) := ⟨rfl, id⟩

theorem hostRead_beside {r : HostRead} {v : Nat} (h : t = { s with trace := s.trace ++ [.hostRead r v], fresh := t.fresh }) :
    Beside s t := by
  rw [h]
  exact ⟨rfl, id⟩

/-- An input that changes the mode is an operation or reset (R177). -/
theorem runInput_mode {i : Input} (h : runInput i s = .next t) (hne : t.mode ≠ s.mode) :
    (∃ p j, i = .packet p ∧ decode p = .ok j ∧ exec j s = .next t) ∨ (i = .reset ∧ t = resetBlock s) := by
  rcases runInput_cases h with hop | ⟨r, -, -, v, ht⟩ | ⟨a, -, -, rfl⟩ | ⟨a, b, -, rfl⟩ | hreset
  case inl => exact .inl hop
  case inr.inl => exact absurd (hostRead_beside ht).mode hne
  case inr.inr.inl => exact absurd (moveSession_mode a s) hne
  case inr.inr.inr.inl => exact absurd (changeMemory_beside a b s).mode hne
  case inr.inr.inr.inr => exact .inr hreset

/-- A step that changes the mode took an operation that makes a listed move, or a reset. -/
theorem step_modeMove (h : step s = .next t) (hne : t.mode ≠ s.mode) :
    (∃ i, Takes s i ∧ ModeMove i s t) ∨ ((∃ u, fetch s = some (.reset, u)) ∧ t.mode = .run) := by
  rcases step_cases h with ⟨-, rfl⟩ | ⟨input, u, hf, hr⟩
  · exact absurd rfl hne
  · have hne' : t.mode ≠ u.mode := by rw [(fetch_beside hf).mode]; exact hne
    rcases runInput_mode hr hne' with ⟨p, i, rfl, hd, hx⟩ | ⟨rfl, rfl⟩
    · have hmove := (exec_syncMove hx).modeMove hne'
      obtain ⟨hu, -⟩ := fetch_eq hf
      rw [hu] at hmove
      exact .inl ⟨i, ⟨p, u, hf, hd⟩, hmove⟩
    · exact .inr ⟨⟨u, hf⟩, rfl⟩

end

/-- Settles O51: every operation moves as `SyncMove` says, and the other inputs but reset keep the mode. -/
theorem modeMovesOnlyAsListed : Obligations.ModeMovesOnlyAsListed :=
  ⟨fun _ _ _ h hne => (exec_syncMove h).modeMove hne, fun _ _ h hne => step_modeMove h hne⟩

/-! ## The ways out of a purge -/

section

variable {s t : State}

/-- Outside HOLD the oldest input is the one taken. -/
theorem inputs_of_fetch {u : State} {i : Input} (hm : s.mode ≠ .hold) (h : fetch s = some (i, u)) : ∃ rest, s.inputs = i :: rest := by
  cases hin : s.inputs with
  | nil => rw [fetch_no_inputs hin] at h; cases h
  | cons j rest =>
    rw [fetch_oldest hm hin] at h
    cases h
    exact ⟨rest, rfl⟩

/-- Of the listed moves only the Quiet event's starts in PURGE and leaves it. -/
theorem ModeMove.of_purge {i : Instr} (h : ModeMove i s t) (hm : s.mode = .purge) (hne : t.mode ≠ .purge) :
    ∃ d, i = .syQuiet d ∧ s.pT ≤ s.quiet + d := by
  rcases h with ⟨hrun, -⟩ | ⟨hpurge, -⟩ | ⟨hhold, -⟩ | ⟨hhold, -⟩ | ⟨-, -, hd⟩
  case inl => rw [hm] at hrun; cases hrun
  case inr.inl => exact absurd hpurge hne
  case inr.inr.inl => rw [hm] at hhold; cases hhold
  case inr.inr.inr.inl => rw [hm] at hhold; cases hhold
  case inr.inr.inr.inr => exact hd

end

/-- Settles O50: out of PURGE the table of transitions lists the Quiet event and reset only, and the equation of that event says what it leaves. -/
theorem purgeEndsOnlyByQuiet : Obligations.PurgeEndsOnlyByQuiet := by
  intro s t hm h hne
  have hnot : s.mode ≠ .hold := by rw [hm]; exact nofun
  rcases step_modeMove h (hm ▸ hne) with ⟨i, ⟨p, u, hf, hd⟩, hmove⟩ | ⟨⟨u, hf⟩, -⟩
  · obtain ⟨d, rfl, hquiet⟩ := hmove.of_purge hm hne
    obtain ⟨rest, hin⟩ := inputs_of_fetch hnot hf
    rw [step_of_fetch (fetch_oldest hnot hin), runInput_decoded hd,
      exec_syQuiet_ends (s := { s with inputs := rest }) hm hquiet] at h
    cases h
    exact .inl ⟨d, p, rest, hin, hd, hquiet, rfl⟩
  · exact .inr (inputs_of_fetch hnot hf)

/-! ## The silence of the block -/

/-- Settles O49: outside HOLD no operation transmits; in HOLD SY.RESYNC is refused and a reaction does nothing at the ports. -/
theorem resynchronizationIsSilent : Obligations.ResynchronizationIsSilent := by
  intro i s t hcase h
  by_cases hm : s.mode = .hold
  · rcases hcase with hpurge | rfl | hi
    · rw [hm] at hpurge; cases hpurge
    · rw [exec_syResync_outside_run (by rw [hm]; exact nofun)] at h; cases h
    · rw [exec_reaction_hold hm hi] at h
      cases h
      rfl
  · exact (exec_portMove h).txLog_eq hm

/-! ## The invariant of the synchronizer -/

/-- A frame the decoder answers with Done is complete and its checksum agrees (spec/42_frame_decoder.md R147, R150). -/
theorem valid_of_feed_done {f g : Frame} {b : Byte} (hi : f.Inv) (h : feed b f = some (.done, g)) : g.Valid := by
  have hdue := checksumDue_of_done hi h
  rw [hdue.feed b] at h
  split at h
  next hsum =>
    cases h
    refine ⟨hdue.complete_after b, ?_⟩
    rw [takeDataByte_dlenExp, hdue.pbuf_checksum b, takeDataByte_header, takeDataByte_data b f hdue.data_taken, hdue.received, hsum]
  next => cases h

theorem Frame.Zero.not_complete {f : Frame} (h : f.Zero) : f.complete = false := by
  obtain ⟨-, -, hrx, -⟩ := h
  exact complete_of_first hrx

/-- After the resynchronization the invariant holds, whatever the state before it. -/
theorem resync_inv (s : State) : (resync s).Inv where
  frame_inv := (zeroCounts_zero s.frame).inv
  receiver_on := rfl
  promise := ⟨zeroCounts_zero s.frame, rfl, rfl⟩
  quiet_in_purge := fun _ => rfl
  quiet_short := .inl rfl

/-- Right after reset of the block the invariant holds, whatever the state before it. -/
theorem resetBlock_inv (s : State) : (resetBlock s).Inv where
  frame_inv := (resetBlock_frame_zero s).inv
  receiver_on := rfl
  promise := (resetBlock_frame_zero s).not_complete
  quiet_in_purge := fun _ => rfl
  quiet_short := .inl rfl

namespace State.Inv

variable {s : State}

theorem frame_valid_of_hold (hi : s.Inv) (hm : s.mode = .hold) : s.frame.Valid := by
  have hp := hi.promise
  rw [ModePromise, hm] at hp
  exact hp

/-- In a purge after an error the frame is reset (R185). -/
theorem frame_zero_of_purge (hi : s.Inv) (hm : s.mode = .purge) (hret : s.pret = .run) : s.frame.Zero := by
  have hp := hi.promise
  simp only [ModePromise, hm, hret] at hp
  exact hp.left

/-- In a purge of the host's own the frame it holds is valid (R187). -/
theorem frame_valid_of_purge (hi : s.Inv) (hm : s.mode = .purge) (hret : s.pret = .hold) : s.frame.Valid := by
  have hp := hi.promise
  simp only [ModePromise, hm, hret] at hp
  exact hp

/-- A byte in RUN that needs more. -/
theorem after_takes {g : Frame} {b : Byte} (hi : s.Inv) (hm : s.mode = .run) (hf : feed b s.frame = some (.needMore, g)) :
    ({ s with frame := g, owesResync := false } : State).Inv where
  frame_inv := hi.frame_inv.after_feed hf
  receiver_on := hi.receiver_on
  promise := by
    rw [ModePromise]
    simp only [hm]
    exact complete_of_feed_needMore hi.frame_inv hf
  quiet_in_purge := hi.quiet_in_purge
  quiet_short := hi.quiet_short

/-- The last byte of a valid frame. -/
theorem after_holds {g : Frame} {b : Byte} (hi : s.Inv) (hm : s.mode = .run) (hf : feed b s.frame = some (.done, g)) :
    ({ s with frame := g, owesResync := false, mode := .hold } : State).Inv where
  frame_inv := hi.frame_inv.after_feed hf
  receiver_on := hi.receiver_on
  promise := valid_of_feed_done hi.frame_inv hf
  quiet_in_purge := fun _ => hi.quiet_in_purge (by rw [hm]; exact nofun)
  quiet_short := hi.quiet_short

/-- The release. -/
theorem after_releases (hi : s.Inv) (hm : s.mode = .hold) : ({ resetFrame s with mode := .run } : State).Inv where
  frame_inv := (zeroCounts_zero s.frame).inv
  receiver_on := hi.receiver_on
  promise := (zeroCounts_zero s.frame).not_complete
  quiet_in_purge := fun _ => hi.quiet_in_purge (by rw [hm]; exact nofun)
  quiet_short := hi.quiet_short

/-- The host's purge, which keeps the frame it holds. -/
theorem after_purges (hi : s.Inv) (d : Nat) (hm : s.mode = .hold) : (enterPurge d .hold s).Inv where
  frame_inv := hi.frame_inv
  receiver_on := hi.receiver_on
  promise := hi.frame_valid_of_hold hm
  quiet_in_purge := fun _ => rfl
  quiet_short := .inl rfl

/-- An event in a purge after which the silence is still too short. -/
theorem after_hears (hi : s.Inv) {q : Nat} (hm : s.mode = .purge) (hq : q = 0 ∨ q < s.pT) : ({ s with quiet := q } : State).Inv where
  frame_inv := hi.frame_inv
  receiver_on := hi.receiver_on
  promise := hi.promise
  quiet_in_purge := fun hne => absurd hm hne
  quiet_short := hq

/-- The end of a purge: what the purge kept is what the mode it returns to promises. -/
theorem after_ends (hi : s.Inv) (hm : s.mode = .purge) : (endPurge s).Inv where
  frame_inv := hi.frame_inv
  receiver_on := hi.receiver_on
  promise := by
    cases hret : s.pret with
    | run =>
      rw [ModePromise, endPurge_mode, hret]
      exact (hi.frame_zero_of_purge hm hret).not_complete
    | hold =>
      rw [ModePromise, endPurge_mode, hret]
      exact hi.frame_valid_of_purge hm hret
  quiet_in_purge := fun _ => rfl
  quiet_short := .inl rfl

/-- A move of the session in HOLD, whose promise speaks of the frame only. -/
theorem after_session (hi : s.Inv) (a : SessionAct) (hm : s.mode = .hold) : (moveSession a s).Inv := by
  rw [moveSession_eq]
  exact
    { frame_inv := hi.frame_inv
      receiver_on := hi.receiver_on
      promise := by
        rw [ModePromise]
        simp only [hm]
        exact hi.frame_valid_of_hold hm
      quiet_in_purge := hi.quiet_in_purge
      quiet_short := hi.quiet_short }

end State.Inv

section

variable {s t : State} {i : Instr}

/-- Whatever an operation that is not the synchronizer's own does keeps the invariant (R194). -/
theorem SyncMove.keeps_inv (h : SyncMove i s t) (hown : Instr.synchronizersOwn i = false) (hi : s.Inv) : t.Inv := by
  cases h with
  | stays h => exact h.keeps_inv hi
  | drives hdrives _ => rw [hown] at hdrives; cases hdrives
  | takes g b hm _ hf h => exact h.keeps_inv (hi.after_takes hm hf)
  | holds g b hm _ hf h => exact h.keeps_inv (hi.after_holds hm hf)
  | resyncs g _ h => exact h.keeps_inv (resync_inv _)
  | releases hm _ h => exact h.keeps_inv (hi.after_releases hm)
  | purges d hm _ h => exact h.keeps_inv (hi.after_purges d hm)
  | hears q hm hq h => exact h.keeps_inv (hi.after_hears hm hq)
  | ends d hm _ _ h => exact h.keeps_inv (hi.after_ends hm)

/-- Only a feed presented by itself leaves a resynchronization owed (log entry 11). -/
theorem SyncMove.keeps_owing_none (h : SyncMove i s t) (hown : Instr.synchronizersOwn i = false) (ho : s.owesResync = false) :
    t.owesResync = false := by
  cases h with
  | stays h => exact h.owesResync.trans ho
  | drives hdrives _ => rw [hown] at hdrives; cases hdrives
  | takes g b _ _ _ h => exact h.owesResync
  | holds g b _ _ _ h => exact h.owesResync
  | resyncs g _ h => exact h.owesResync
  | releases _ _ h => exact h.owesResync.trans ho
  | purges d _ _ h => exact h.owesResync.trans ho
  | hears q _ _ h => exact h.owesResync.trans ho
  | ends d _ _ _ h => exact h.owesResync.trans ho

/-- The operation of the input a disciplined step takes is not the synchronizer's own (spec/30_encoding.md R85). -/
theorem Disciplined.of_fetch {u : State} {p : Packet} (hd : Disciplined s) (hf : fetch s = some (.packet p, u)) (hi : decode p = .ok i) :
    Instr.synchronizersOwn i = false := hd p u i hf hi

/-- Everything a disciplined step does to what the modes promise: besides a change of the inputs, nothing, a move of an operation that is not the
synchronizer's own, a move of the session in HOLD, or reset. -/
theorem disciplined_step_cases (hd : Disciplined s) (h : step s = .next t) :
    ∃ u, Beside s u ∧ (Beside u t ∨ (∃ i, Instr.synchronizersOwn i = false ∧ SyncMove i u t) ∨
      (u.mode = .hold ∧ ∃ a, t = moveSession a u) ∨ t = resetBlock u) := by
  rcases step_cases h with ⟨-, rfl⟩ | ⟨input, u, hf, hr⟩
  · exact ⟨t, ⟨rfl, id⟩, .inl ⟨rfl, id⟩⟩
  · refine ⟨u, fetch_beside hf, ?_⟩
    rcases runInput_cases hr with ⟨p, i, rfl, hi, hx⟩ | ⟨r, -, -, v, ht⟩ | ⟨a, -, hm, ht⟩ | ⟨a, b, -, rfl⟩ | ⟨-, ht⟩
    case inl => exact .inr (.inl ⟨i, hd.of_fetch hf hi, exec_syncMove hx⟩)
    case inr.inl => exact .inl (hostRead_beside ht)
    case inr.inr.inl => exact .inr (.inr (.inl ⟨hm, a, ht⟩))
    case inr.inr.inr.inl => exact .inl (changeMemory_beside a b u)
    case inr.inr.inr.inr => exact .inr (.inr (.inr ht))

theorem step_keeps_inv (hi : s.Inv) (hd : Disciplined s) (h : step s = .next t) : t.Inv := by
  obtain ⟨u, hu, hcases⟩ := disciplined_step_cases hd h
  have hi := hu.keeps_inv hi
  rcases hcases with hbeside | ⟨i, hown, hmove⟩ | ⟨hm, a, rfl⟩ | rfl
  · exact hbeside.keeps_inv hi
  · exact hmove.keeps_inv hown hi
  · exact hi.after_session a hm
  · exact resetBlock_inv u

theorem step_keeps_owing_none (hd : Disciplined s) (ho : s.owesResync = false) (h : step s = .next t) : t.owesResync = false := by
  obtain ⟨u, hu, hcases⟩ := disciplined_step_cases hd h
  have ho := hu.owesResync.trans ho
  rcases hcases with hbeside | ⟨i, hown, hmove⟩ | ⟨-, a, rfl⟩ | rfl
  · exact hbeside.owesResync.trans ho
  · exact hmove.keeps_owing_none hown ho
  · exact (moveSession_owesResync a u).trans ho
  · rfl

end

/-- Settles O53: each move a disciplined step can make keeps the invariant and owes nothing, and SY.RESYNC leaves a state that meets the invariant. -/
theorem stepKeepsTheSynchronizerInvariant : Obligations.StepKeepsTheSynchronizerInvariant := by
  refine ⟨fun _ _ => step_keeps_inv, fun s _ _ h => ?_, fun _ _ => step_keeps_owing_none⟩
  obtain ⟨-, rfl⟩ := syResync_forces h
  exact resync_inv s

end Sys2Proof.Machine

/-! PROOFS. The session over all operations and steps: what a step can do to it is said once, and from it follow the only ways into and out of Connected and
Unlocked (spec/45_host_context.md R206) and the host's two acts (R202, R233). -/

namespace Sys2Proof.Machine

/-! ## What an operation can do to the session -/

/-- What a resynchronization leaves of the session, the mode and the frame (spec/44_synchronizer.md R185). -/
structure ForcedDown (t : State) : Prop where
  link : t.link = .disconnected
  flash : t.flash = .locked
  mode : t.mode = .purge
  frame : t.frame.Zero

/-- Everything an operation does, from `s` to `t`, to the session: it belongs to the host (spec/10_state.md R32), and only a resynchronization touches it. -/
inductive OpSessionMove (i : Instr) (s t : State) : Prop where
  | keeps (hlink : t.link = s.link) (hflash : t.flash = s.flash)
  | forces (hforces : ForcesResync i s) (hdown : ForcedDown t)

section

variable {s t : State} {i : Instr}

theorem resync_forcedDown (s : State) : ForcedDown (resync s) := ⟨rfl, rfl, rfl, zeroCounts_zero s.frame⟩

theorem Beside.forcedDown {u : State} (h : Beside u t) (hu : ForcedDown u) : ForcedDown t where
  link := h.link.trans hu.link
  flash := h.flash.trans hu.flash
  mode := h.mode.trans hu.mode
  frame := by rw [h.frame]; exact hu.frame

theorem feedOp_sessionMove {b : Byte} (h : feedOp b s = .next t) : OpSessionMove i s t := by
  obtain ⟨r, hr⟩ := feedOp_next h
  obtain ⟨g, -, ht, -⟩ := feedState_cases hr
  exact .keeps (by rw [ht]) (by rw [ht])

/-- The operations that drive the decoder leave the session alone, and SY.RESYNC forces it down (log entry 11). -/
theorem exec_sessionMove_of_synchronizersOwn (hown : Instr.synchronizersOwn i = true) (h : exec i s = .next t) : OpSessionMove i s t := by
  cases i with
  | fmtBad x => exact feedOp_sessionMove h
  | fmtNLb => exact feedOp_sessionMove h
  | fmtALb x => exact feedOp_sessionMove h
  | fmtNLif l => exact feedOp_sessionMove h
  | fmtALif x l => exact feedOp_sessionMove h
  | fdReset => cases h; exact .keeps rfl rfl
  | fdFeed b => exact feedOp_sessionMove h
  | syResync =>
    obtain ⟨hforces, rfl⟩ := syResync_forces h
    exact .forces hforces (resync_forcedDown s)
  | _ => cases hown

/-- Everything an operation does, when it goes on, to the session. -/
theorem exec_sessionMove (h : exec i s = .next t) : OpSessionMove i s t := by
  cases exec_syncMove h with
  | stays hb => exact .keeps hb.link hb.flash
  | drives hown _ => exact exec_sessionMove_of_synchronizersOwn hown h
  | takes g b _ _ _ hb => exact .keeps hb.link hb.flash
  | holds g b _ _ _ hb => exact .keeps hb.link hb.flash
  | resyncs g hforces hb => exact .forces hforces (hb.forcedDown (resync_forcedDown _))
  | releases _ _ hb => exact .keeps hb.link hb.flash
  | purges d _ _ hb => exact .keeps hb.link hb.flash
  | hears q _ _ hb => exact .keeps hb.link hb.flash
  | ends d _ _ _ hb => exact .keeps hb.link hb.flash

end

/-! ## The host's two acts -/

section

variable {s : State}

theorem runInput_session_hold (a : SessionAct) (hm : s.mode = .hold) : runInput (.session a) s = .next (moveSession a s) :=
  if_neg (not_not.mpr hm)

theorem runInput_session_refused (a : SessionAct) (hm : s.mode ≠ .hold) : runInput (.session a) s = .refused .hostActOutsideHold :=
  if_pos hm

theorem moveSession_prepare_connected (hl : s.link = .connected) : moveSession .prepareToReflash s = { s with flash := .unlocked } :=
  if_pos hl

theorem moveSession_prepare_disconnected (hl : s.link = .disconnected) : moveSession .prepareToReflash s = s :=
  if_neg (by rw [hl]; exact nofun)

end

/-! ## What a step can do to the session -/

/-- Everything a step does, from `s` to `t`, to the session. -/
inductive SessionMove (s t : State) : Prop where
  | keeps (hlink : t.link = s.link) (hflash : t.flash = s.flash)
  /-- An operation that forces a resynchronization is taken (spec/45_host_context.md R203). -/
  | forces (hforces : ∃ i, Takes s i ∧ ForcesResync i s) (hdown : ForcedDown t)
  /-- StartCommunication, which connects and locks (R202). -/
  | starts (hact : ∃ u, fetch s = some (.session .startCommunication, u)) (hlink : t.link = .connected) (hflash : t.flash = .locked)
  /-- A successful prepare-to-reflash while Connected, which unlocks (R233). -/
  | unlocks (hact : ∃ u, fetch s = some (.session .prepareToReflash, u)) (hs : s.link = .connected) (hlink : t.link = .connected)
      (hflash : t.flash = .unlocked)
  | resets (hact : ∃ u, fetch s = some (.reset, u)) (hlink : t.link = .disconnected) (hflash : t.flash = .locked)

section

variable {s t : State}

theorem Beside.sessionMove (h : Beside s t) : SessionMove s t := .keeps h.link h.flash

/-- The operation of a packet, run on the state the packet was taken from. -/
theorem OpSessionMove.of_fetch {u : State} {p : Packet} {i : Instr} (hf : fetch s = some (.packet p, u)) (hd : decode p = .ok i)
    (h : OpSessionMove i u t) : SessionMove s t := by
  cases h with
  | keeps hlink hflash => exact .keeps (hlink.trans (fetch_beside hf).link) (hflash.trans (fetch_beside hf).flash)
  | forces hforces hdown =>
    obtain ⟨hu, -⟩ := fetch_eq hf
    rw [hu] at hforces
    exact .forces ⟨i, ⟨p, u, hf, hd⟩, hforces⟩ hdown

/-- An act of the host, run on the state it was taken from. -/
theorem sessionMove_of_act {u : State} {a : SessionAct} (hf : fetch s = some (.session a, u)) : SessionMove s (moveSession a u) := by
  have hu := fetch_beside hf
  cases a with
  | startCommunication => exact .starts ⟨u, hf⟩ rfl rfl
  | prepareToReflash =>
    cases hl : u.link with
    | connected =>
      rw [moveSession_prepare_connected hl]
      exact .unlocks ⟨u, hf⟩ (hu.link.symm.trans hl) hl rfl
    | disconnected =>
      rw [moveSession_prepare_disconnected hl]
      exact hu.sessionMove

/-- Everything a step does, when it goes on, to the session. -/
theorem step_sessionMove (h : step s = .next t) : SessionMove s t := by
  rcases step_cases h with ⟨-, rfl⟩ | ⟨input, u, hf, hr⟩
  · exact .keeps rfl rfl
  · have hu := fetch_beside hf
    rcases runInput_cases hr with ⟨p, i, rfl, hd, hx⟩ | ⟨r, -, -, v, ht⟩ | ⟨a, rfl, -, rfl⟩ | ⟨a, b, -, rfl⟩ | ⟨rfl, rfl⟩
    case inl => exact (exec_sessionMove hx).of_fetch hf hd
    case inr.inl => exact .keeps ((hostRead_beside ht).link.trans hu.link) ((hostRead_beside ht).flash.trans hu.flash)
    case inr.inr.inl => exact sessionMove_of_act hf
    case inr.inr.inr.inl => exact .keeps hu.link hu.flash
    case inr.inr.inr.inr => exact .resets ⟨u, hf⟩ rfl rfl

namespace SessionMove

/-- Connected is entered by StartCommunication only. -/
theorem connects (h : SessionMove s t) (ht : t.link = .connected) :
    s.link = .connected ∨ ∃ u, fetch s = some (.session .startCommunication, u) := by
  cases h with
  | keeps hlink _ => exact .inl (hlink.symm.trans ht)
  | forces _ hdown => rw [hdown.link] at ht; cases ht
  | starts hact _ _ => exact .inr hact
  | unlocks _ hs _ _ => exact .inl hs
  | resets _ hlink _ => rw [hlink] at ht; cases ht

/-- Unlocked is entered by a successful prepare-to-reflash while Connected only. -/
theorem unlocks_only (h : SessionMove s t) (ht : t.flash = .unlocked) :
    s.flash = .unlocked ∨ (s.link = .connected ∧ ∃ u, fetch s = some (.session .prepareToReflash, u)) := by
  cases h with
  | keeps _ hflash => exact .inl (hflash.symm.trans ht)
  | forces _ hdown => rw [hdown.flash] at ht; cases ht
  | starts _ _ hflash => rw [hflash] at ht; cases ht
  | unlocks hact hs _ _ => exact .inr ⟨hs, hact⟩
  | resets _ _ hflash => rw [hflash] at ht; cases ht

/-- Connected is left by a resynchronization or reset only. -/
theorem disconnects (h : SessionMove s t) (hs : s.link = .connected) (ht : t.link = .disconnected) :
    ((∃ i, Takes s i ∧ ForcesResync i s) ∧ ForcedDown t) ∨ ∃ u, fetch s = some (.reset, u) := by
  cases h with
  | keeps hlink _ => rw [hlink, hs] at ht; cases ht
  | forces hforces hdown => exact .inl ⟨hforces, hdown⟩
  | starts _ hlink _ => rw [hlink] at ht; cases ht
  | unlocks _ _ hlink _ => rw [hlink] at ht; cases ht
  | resets hact _ _ => exact .inr hact

/-- Unlocked is left by a resynchronization, reset or a repeated StartCommunication only. -/
theorem locks (h : SessionMove s t) (hs : s.flash = .unlocked) (ht : t.flash = .locked) :
    ((∃ i, Takes s i ∧ ForcesResync i s) ∧ ForcedDown t) ∨ (∃ u, fetch s = some (.reset, u)) ∨
      ∃ u, fetch s = some (.session .startCommunication, u) := by
  cases h with
  | keeps _ hflash => rw [hflash, hs] at ht; cases ht
  | forces hforces hdown => exact .inl ⟨hforces, hdown⟩
  | starts hact _ _ => exact .inr (.inr hact)
  | unlocks _ _ _ hflash => rw [hflash] at ht; cases ht
  | resets hact _ _ => exact .inr (.inl hact)

end SessionMove

end

/-- Settles O52: every step moves the session as `SessionMove` says, whose cases leave only the listed ways in and out; the host's two acts run by their
equations in HOLD and are refused elsewhere. -/
theorem sessionMovesOnlyAsListed : Obligations.SessionMovesOnlyAsListed := by
  refine ⟨fun s t h => ?_, fun _ hm => runInput_session_hold _ hm, fun s hm hl => ?_, fun s hm hl => ?_, fun a _ hm => runInput_session_refused a hm⟩
  · have hmove := step_sessionMove h
    refine ⟨hmove.connects, hmove.unlocks_only, fun hs ht => ?_, fun hs ht => ?_⟩
    · exact (hmove.disconnects hs ht).imp_left fun ⟨hforces, hdown⟩ => ⟨hforces, hdown.flash, hdown.mode, hdown.frame⟩
    · exact (hmove.locks hs ht).imp_left fun ⟨hforces, hdown⟩ => ⟨hforces, hdown.link, hdown.mode, hdown.frame⟩
  · rw [runInput_session_hold _ hm, moveSession_prepare_connected hl]
  · rw [runInput_session_hold _ hm, moveSession_prepare_disconnected hl]

end Sys2Proof.Machine

/-! PROOFS. Reset of the block in any mode (spec/70_reset_and_hazards.md R271). -/

namespace Sys2Proof.Machine

/-- Reset looks at nothing of the state it is taken in: no mode and no point of a frame refuses it. -/
theorem runInput_reset (s : State) : runInput .reset s = .next (resetBlock s) := rfl

/-- Settles O59: reset runs to `resetBlock s`, whose frame counts and memory have their lemmas and whose other fields are read off its definition. -/
theorem resetInAnyMode : Obligations.ResetInAnyMode := by
  intro s
  refine ⟨resetBlock s, runInput_reset s, .of_mem_eq (resetBlock_mem s), resetBlock_frame_zero s, ?fields⟩
  case fields => exact ⟨rfl, rfl, rfl, rfl, rfl, rfl, rfl, rfl, rfl, rfl, rfl⟩

end Sys2Proof.Machine
